-- ==== Sys2Proof/Word.lean ====
section
/-! DEFINITION. The word types of the machine: bytes, addresses, instruction words, register numbers. -/

namespace Sys2Proof

/-- An 8-bit value: a register, a timer, a byte of memory (R15, R23, R25). -/
abbrev Byte := BitVec 8

/-- A 16-bit value: I, PC and a return address (R17, R20, R22). -/
abbrev Addr := BitVec 16

/-- One 16-bit instruction word (R63). -/
abbrev InstrWord := BitVec 16

/-- The number of a general register, 0 to 15 (R15), and of a key (R30). -/
abbrev Reg := Fin 16

/-- VF, the flag register (R16). -/
abbrev flagReg : Reg := 15

end Sys2Proof
end

