-- ==== Sys2Proof/Config.lean ====
section
/-! DEFINITION. What one block fixes (00_scope.md R7) and the inputs the spec leaves free (93_implementation_defined.md U4, U6). -/

namespace Sys2Proof

/-- What happens to a sprite pixel outside the framebuffer (R128, R129). -/
inductive DrawEdge where
  | wrap
  | clip
  deriving DecidableEq, Repr

/-- What BNNN writes: PC (`jump`) or I (`index`) (R97). -/
inductive BnnnMode where
  | jump
  | index
  deriving DecidableEq, Repr

/-- The configuration fields of R7. -/
structure Configuration where
  memSize    : Nat
  origin     : Nat
  fontBase   : Nat
  font       : List Byte
  stackDepth : Nat
  drawEdge   : DrawEdge
  bnnnMode   : BnnnMode
  deriving DecidableEq, Repr

/-- Bytes of one glyph and number of glyphs (R7, R27). -/
abbrev glyphSize : Nat := 5
abbrev numGlyphs : Nat := 16

/-- The constraint R7 puts on a configuration, with a font of the size R27 gives. -/
abbrev Configuration.Valid (c : Configuration) : Prop :=
  c.fontBase + numGlyphs * glyphSize ≤ c.origin ∧ c.origin < c.memSize ∧ c.memSize ≤ 0x10000 ∧
    c.font.length = numGlyphs * glyphSize

/-- Glyphs 0 to 7 of R29, top row first. -/
def Config.fontLow : List Byte :=
  [0xF0, 0x90, 0x90, 0x90, 0xF0] ++ [0x20, 0x60, 0x20, 0x20, 0x70] ++
  [0xF0, 0x10, 0xF0, 0x80, 0xF0] ++ [0xF0, 0x10, 0xF0, 0x10, 0xF0] ++
  [0x90, 0x90, 0xF0, 0x10, 0x10] ++ [0xF0, 0x80, 0xF0, 0x10, 0xF0] ++
  [0xF0, 0x80, 0xF0, 0x90, 0xF0] ++ [0xF0, 0x10, 0x20, 0x40, 0x40]

/-- Glyphs 8 to F of R29, top row first. -/
def Config.fontHigh : List Byte :=
  [0xF0, 0x90, 0xF0, 0x90, 0xF0] ++ [0xF0, 0x90, 0xF0, 0x10, 0xF0] ++
  [0xF0, 0x90, 0xF0, 0x90, 0x90] ++ [0xE0, 0x90, 0xE0, 0x90, 0xE0] ++
  [0xF0, 0x80, 0x80, 0x80, 0xF0] ++ [0xE0, 0x90, 0x90, 0x90, 0xE0] ++
  [0xF0, 0x80, 0xF0, 0x80, 0xF0] ++ [0xF0, 0x80, 0xF0, 0x80, 0x80]

/-- This hardware's configuration, the values of R7's table. -/
abbrev Config.hw : Configuration :=
  { memSize    := 4096
    origin     := 0x200
    fontBase   := 0x000
    font       := Config.fontLow ++ Config.fontHigh
    stackDepth := 16
    drawEdge   := .wrap
    bnnnMode   := .jump }

/-- The `ticks` of the `k`-th Cycle whose inputs the host's list does not give: any natural number (R38, U6). DESIGN CHOICE, safe: no value can be proved of it (log 2). -/
opaque Config.freeTicks : Nat → Nat

/-- The `rnd` of the `k`-th Cycle whose inputs the host's list does not give: any byte (R39, U4). DESIGN CHOICE, safe: no value can be proved of it (log 2). -/
opaque Config.freeRnd : Nat → Byte

end Sys2Proof
end

