-- ==== Sys2Proof/Syntax.lean ====
section
/-! DEFINITION. The 35 instructions (30_encoding.md R67), one constructor per row of the opcode table. -/

namespace Sys2Proof

/-- An instruction with its operand fields (R64, R65): `x`, `y` are register numbers, `nn` a byte, `nnn` a 12-bit address, `n` a row count. -/
inductive Instr where
  /-- `00E0` CLS (R125). -/
  | cls
  /-- `00EE` RET (R94). -/
  | ret
  /-- `0NNN` SYS NNN (R93). -/
  | sys (nnn : BitVec 12)
  /-- `1NNN` JP NNN (R95). -/
  | jp (nnn : BitVec 12)
  /-- `2NNN` CALL NNN (R96). -/
  | call (nnn : BitVec 12)
  /-- `3XNN` SE VX, NN (R99). -/
  | seByte (x : Reg) (nn : Byte)
  /-- `4XNN` SNE VX, NN (R100). -/
  | sneByte (x : Reg) (nn : Byte)
  /-- `5XY0` SE VX, VY (R101). -/
  | seReg (x y : Reg)
  /-- `6XNN` LD VX, NN (R107). -/
  | ldByte (x : Reg) (nn : Byte)
  /-- `7XNN` ADD VX, NN (R108). -/
  | addByte (x : Reg) (nn : Byte)
  /-- `8XY0` LD VX, VY (R109). -/
  | ldReg (x y : Reg)
  /-- `8XY1` OR VX, VY (R110). -/
  | orReg (x y : Reg)
  /-- `8XY2` AND VX, VY (R111). -/
  | andReg (x y : Reg)
  /-- `8XY3` XOR VX, VY (R112). -/
  | xorReg (x y : Reg)
  /-- `8XY4` ADD VX, VY (R113). -/
  | addReg (x y : Reg)
  /-- `8XY5` SUB VX, VY (R114). -/
  | subReg (x y : Reg)
  /-- `8XY6` SHR VX, VY (R115). -/
  | shrReg (x y : Reg)
  /-- `8XY7` SUBN VX, VY (R116). -/
  | subnReg (x y : Reg)
  /-- `8XYE` SHL VX, VY (R117). -/
  | shlReg (x y : Reg)
  /-- `9XY0` SNE VX, VY (R102). -/
  | sneReg (x y : Reg)
  /-- `ANNN` LD I, NNN (R119). -/
  | ldI (nnn : BitVec 12)
  /-- `BNNN` JP V0, NNN (R97). -/
  | jpV0 (nnn : BitVec 12)
  /-- `CXNN` RND VX, NN (R118). -/
  | rndByte (x : Reg) (nn : Byte)
  /-- `DXYN` DRW VX, VY, N (R127). -/
  | drw (x y : Reg) (n : BitVec 4)
  /-- `EX9E` SKP VX (R103). -/
  | skp (x : Reg)
  /-- `EXA1` SKNP VX (R104). -/
  | sknp (x : Reg)
  /-- `FX07` LD VX, DT (R130). -/
  | ldVxDt (x : Reg)
  /-- `FX0A` LD VX, K (R133). -/
  | ldVxK (x : Reg)
  /-- `FX15` LD DT, VX (R131). -/
  | ldDtVx (x : Reg)
  /-- `FX18` LD ST, VX (R132). -/
  | ldStVx (x : Reg)
  /-- `FX1E` ADD I, VX (R120). -/
  | addI (x : Reg)
  /-- `FX29` LD F, VX (R121). -/
  | ldF (x : Reg)
  /-- `FX33` LD B, VX (R122). -/
  | ldB (x : Reg)
  /-- `FX55` LD [I], VX (R123). -/
  | storeRegs (x : Reg)
  /-- `FX65` LD VX, [I] (R124). -/
  | loadRegs (x : Reg)
  deriving DecidableEq, Repr

end Sys2Proof
end

