-- ==== Sys2Proof/Decode.lean ====
section
/-! DEFINITION. The decoder, total on every word and on any bytes (30_encoding.md R63 to R75), and after it the encoder, from the same patterns (R67). -/

namespace Sys2Proof

/-- Why no instruction is read. The first five are R74's unknown opcodes, one name for each family; at run time such a word is reported and runs as a no-op (R82). The last is for a byte list shorter than a word, which no fetch gives. -/
inductive Reject where
  | unknownFamily5
  | unknownFamily8
  | unknownFamily9
  | unknownFamilyE
  | unknownFamilyF
  | truncated
  deriving DecidableEq, Repr

/-! ## The fields of a word (R65) -/

/-- `op = w[15:12]`. -/
def opField (w : InstrWord) : Nat := w.toNat / 0x1000

/-- `X = w[11:8]`. -/
def xField (w : InstrWord) : Reg := Fin.ofNat 16 (w.toNat / 0x100)

/-- `Y = w[7:4]`. -/
def yField (w : InstrWord) : Reg := Fin.ofNat 16 (w.toNat / 0x10)

/-- `N = w[3:0]`. -/
def nField (w : InstrWord) : BitVec 4 := BitVec.ofNat 4 w.toNat

/-- `NN = w[7:0]`. -/
def nnField (w : InstrWord) : Byte := BitVec.ofNat 8 w.toNat

/-- `NNN = w[11:0]`. -/
def nnnField (w : InstrWord) : BitVec 12 := BitVec.ofNat 12 w.toNat

/-! ## The inner look-ups -/

/-- Family 0 is decoded on the whole word; SYS takes what CLS and RET leave (R69). -/
def decodeFamily0 (w : InstrWord) : Except Reject Instr :=
  if w = 0x00E0 then .ok .cls
  else if w = 0x00EE then .ok .ret
  else .ok (.sys (nnnField w))

/-- Family 5 is decoded on N (R70). -/
def decodeFamily5 (w : InstrWord) : Except Reject Instr :=
  if nField w = 0x0 then .ok (.seReg (xField w) (yField w)) else .error .unknownFamily5

/-- Family 8 is decoded on N (R71). -/
def decodeFamily8 (w : InstrWord) : Except Reject Instr :=
  match (nField w).toNat with
  | 0x0 => .ok (.ldReg (xField w) (yField w))
  | 0x1 => .ok (.orReg (xField w) (yField w))
  | 0x2 => .ok (.andReg (xField w) (yField w))
  | 0x3 => .ok (.xorReg (xField w) (yField w))
  | 0x4 => .ok (.addReg (xField w) (yField w))
  | 0x5 => .ok (.subReg (xField w) (yField w))
  | 0x6 => .ok (.shrReg (xField w) (yField w))
  | 0x7 => .ok (.subnReg (xField w) (yField w))
  | 0xE => .ok (.shlReg (xField w) (yField w))
  | _   => .error .unknownFamily8

/-- Family 9 is decoded on N (R70). -/
def decodeFamily9 (w : InstrWord) : Except Reject Instr :=
  if nField w = 0x0 then .ok (.sneReg (xField w) (yField w)) else .error .unknownFamily9

/-- Family E is decoded on NN (R72). -/
def decodeFamilyE (w : InstrWord) : Except Reject Instr :=
  if nnField w = 0x9E then .ok (.skp (xField w))
  else if nnField w = 0xA1 then .ok (.sknp (xField w))
  else .error .unknownFamilyE

/-- Family F is decoded on NN (R73). -/
def decodeFamilyF (w : InstrWord) : Except Reject Instr :=
  if nnField w = 0x07 then .ok (.ldVxDt (xField w))
  else if nnField w = 0x0A then .ok (.ldVxK (xField w))
  else if nnField w = 0x15 then .ok (.ldDtVx (xField w))
  else if nnField w = 0x18 then .ok (.ldStVx (xField w))
  else if nnField w = 0x1E then .ok (.addI (xField w))
  else if nnField w = 0x29 then .ok (.ldF (xField w))
  else if nnField w = 0x33 then .ok (.ldB (xField w))
  else if nnField w = 0x55 then .ok (.storeRegs (xField w))
  else if nnField w = 0x65 then .ok (.loadRegs (xField w))
  else .error .unknownFamilyF

/-- The outer look-up on the high nibble (R68). A word's high nibble is below 16, so the last line is family F and nothing else. -/
def decode (w : InstrWord) : Except Reject Instr :=
  match opField w with
  | 0x0 => decodeFamily0 w
  | 0x1 => .ok (.jp (nnnField w))
  | 0x2 => .ok (.call (nnnField w))
  | 0x3 => .ok (.seByte (xField w) (nnField w))
  | 0x4 => .ok (.sneByte (xField w) (nnField w))
  | 0x5 => decodeFamily5 w
  | 0x6 => .ok (.ldByte (xField w) (nnField w))
  | 0x7 => .ok (.addByte (xField w) (nnField w))
  | 0x8 => decodeFamily8 w
  | 0x9 => decodeFamily9 w
  | 0xA => .ok (.ldI (nnnField w))
  | 0xB => .ok (.jpV0 (nnnField w))
  | 0xC => .ok (.rndByte (xField w) (nnField w))
  | 0xD => .ok (.drw (xField w) (yField w) (nField w))
  | 0xE => decodeFamilyE w
  | _   => decodeFamilyF w

/-! ## Bytes (R44, R63): the high byte of a word stands first -/

/-- The word two bytes make, the first one its high byte (R44). -/
def wordOfBytes (hi lo : Byte) : InstrWord := hi ++ lo

/-- The high byte of a word, which stands at the lower address (R44). -/
def hiByte (w : InstrWord) : Byte := w.extractLsb' 8 8

/-- The low byte of a word (R44). -/
def loByte (w : InstrWord) : Byte := w.extractLsb' 0 8

/-- Reads one instruction from the front of a byte list and gives the rest of the list. -/
def decodeBytes : List Byte → Except Reject (Instr × List Byte)
  | hi :: lo :: rest =>
    match decode (wordOfBytes hi lo) with
    | .ok i => .ok (i, rest)
    | .error e => .error e
  | _ => .error .truncated

/-- The word whose low `nbits` bits are those of `w` and whose other bits are 0. -/
def tableWord (nbits w : Nat) : InstrWord := BitVec.ofNat 16 (w % 2 ^ nbits)

/-- The host's view of the decoder: the instruction read from a table word of `nbits` bits, laid out as two bytes with the high byte first. -/
def decodeTableWord (nbits w : Nat) : Option Instr :=
  match decodeBytes [hiByte (tableWord nbits w), loByte (tableWord nbits w)] with
  | .ok (i, _) => some i
  | .error _ => none

/-! ## The encoder -/

/-- Format `NNN` (R64). -/
def wordNNN (op : Nat) (nnn : BitVec 12) : InstrWord := BitVec.ofNat 16 (op * 0x1000 + nnn.toNat)

/-- Format `XNN`, and format `X` with its fixed low byte (R64). -/
def wordXNN (op : Nat) (x : Reg) (nn : Byte) : InstrWord :=
  BitVec.ofNat 16 (op * 0x1000 + x.val * 0x100 + nn.toNat)

/-- Format `XYN`, and format `XY` with its fixed low nibble (R64). -/
def wordXYN (op : Nat) (x y : Reg) (n : BitVec 4) : InstrWord :=
  BitVec.ofNat 16 (op * 0x1000 + x.val * 0x100 + y.val * 0x10 + n.toNat)

/-- The word of an instruction, by the patterns of R67. -/
def encode : Instr → InstrWord
  | .cls => 0x00E0
  | .ret => 0x00EE
  | .sys nnn => wordNNN 0x0 nnn
  | .jp nnn => wordNNN 0x1 nnn
  | .call nnn => wordNNN 0x2 nnn
  | .seByte x nn => wordXNN 0x3 x nn
  | .sneByte x nn => wordXNN 0x4 x nn
  | .seReg x y => wordXYN 0x5 x y 0x0
  | .ldByte x nn => wordXNN 0x6 x nn
  | .addByte x nn => wordXNN 0x7 x nn
  | .ldReg x y => wordXYN 0x8 x y 0x0
  | .orReg x y => wordXYN 0x8 x y 0x1
  | .andReg x y => wordXYN 0x8 x y 0x2
  | .xorReg x y => wordXYN 0x8 x y 0x3
  | .addReg x y => wordXYN 0x8 x y 0x4
  | .subReg x y => wordXYN 0x8 x y 0x5
  | .shrReg x y => wordXYN 0x8 x y 0x6
  | .subnReg x y => wordXYN 0x8 x y 0x7
  | .shlReg x y => wordXYN 0x8 x y 0xE
  | .sneReg x y => wordXYN 0x9 x y 0x0
  | .ldI nnn => wordNNN 0xA nnn
  | .jpV0 nnn => wordNNN 0xB nnn
  | .rndByte x nn => wordXNN 0xC x nn
  | .drw x y n => wordXYN 0xD x y n
  | .skp x => wordXNN 0xE x 0x9E
  | .sknp x => wordXNN 0xE x 0xA1
  | .ldVxDt x => wordXNN 0xF x 0x07
  | .ldVxK x => wordXNN 0xF x 0x0A
  | .ldDtVx x => wordXNN 0xF x 0x15
  | .ldStVx x => wordXNN 0xF x 0x18
  | .addI x => wordXNN 0xF x 0x1E
  | .ldF x => wordXNN 0xF x 0x29
  | .ldB x => wordXNN 0xF x 0x33
  | .storeRegs x => wordXNN 0xF x 0x55
  | .loadRegs x => wordXNN 0xF x 0x65

/-- The two bytes of an instruction as memory holds them, high byte first (R44). -/
def encodeBytes (i : Instr) : List Byte := [hiByte (encode i), loByte (encode i)]

end Sys2Proof
end

