-- ==== Sys2Proof/Machine/State.lean ====
section
/-! DEFINITION. Everything the spec gives the machine (10_state.md R15 to R36), with the interface's inputs and answers (R37 to R41), and the reset values (70_reset_and_hazards.md R154). -/

namespace Sys2Proof.Machine

/-! ## Faults of the machine: they are state (R34, R35) -/

/-- The fatal errors (60_exceptions.md R137). -/
inductive FatalError where
  | stackUnderflow
  | stackOverflow
  | memoryOutOfBounds
  | writeProtect
  deriving DecidableEq, Repr

/-- What an access does (R35). -/
inductive AccessKind where
  | fetch
  | read
  | write
  deriving DecidableEq, Repr

/-- The access of a memory fault: `(addr, n, kind)` (R35). -/
structure Access where
  addr : Addr
  n    : Nat
  kind : AccessKind
  deriving DecidableEq, Repr

/-- What a handler or a fetch raises: the reason, with the access of a memory fault and none for a stack fault (00_scope.md R12, R35). -/
structure Trap where
  reason : FatalError
  access : Option Access
  deriving DecidableEq, Repr

/-- The fault record `(reason, instr_addr, access)` (R35). -/
structure FaultRecord where
  reason    : FatalError
  instrAddr : Addr
  access    : Option Access
  deriving DecidableEq, Repr

/-- The run state (R34). -/
inductive Run where
  | unloaded
  | running
  | awaitKey (x : Reg)
  | halted (f : FaultRecord)
  deriving DecidableEq, Repr

/-! ## Stores -/

/-- Memory: the bytes that differ from what Reset leaves, by rising address, so that equal memories are equal lists (R25; log 7). -/
abbrev Memory := List Host.Cell

/-- A pixel's column (0 to 63) and row (0 to 31) (R32). -/
abbrev Pixel := Fin 64 × Fin 32

/-- The framebuffer: the pixels that are on, in the order of the screen (rows from the top, each from the left), so that equal screens are equal lists. Every pixel not listed is off (R32; log 7). -/
abbrev Framebuffer := List Pixel

/-- One flag for each of the 16 keys (R30). -/
abbrev KeyFlags := Vector Bool 16

/-! ## The interface (R37 to R41) -/

/-- The one diagnostic event (R41, R139). -/
inductive Event where
  | unknownOpcode (addr : Addr) (word : InstrWord)
  deriving DecidableEq, Repr

/-- The host's transactions: those of R37, the reads of R40, and destruction (R158). -/
inductive Transaction where
  | reset
  | load (bytes : List Byte)
  | setKeys (k : KeyFlags)
  | cycle (ticks : Nat) (rnd : Byte)
  | readFramebuffer
  | readSoundActive
  | readStatus
  | destroy
  deriving DecidableEq, Repr

/-- What `status()` answers: the run state, with the fault record when halted (R40), and KeysPrev (R33; log 16). -/
structure Status where
  run      : Run
  keysPrev : KeyFlags
  deriving DecidableEq, Repr

/-- What a transaction returns to the host: nothing (R154, R37), the events of a Cycle (R41), the result of a Load (R155), or the value read (R40). -/
inductive Reply where
  | nothing
  | events (l : List Event)
  | loadOk
  | loadTooLarge
  | framebuffer (g : Framebuffer)
  | soundActive (b : Bool)
  | status (r : Status)
  deriving DecidableEq, Repr

/-! ## The state -/

/-- The machine's state. The fields down to `run` are the spec's (R36). The last four are the model's own: they hold the interface's inputs and answers (logs 1 to 4). -/
structure State where
  /-- V0..VF (R15). -/
  v        : Vector Byte 16
  /-- The index register (R20). -/
  i        : Addr
  /-- The program counter (R17). -/
  pc       : Addr
  /-- The call stack, its top first (R22). -/
  stack    : List Addr
  /-- The delay timer (R23). -/
  dt       : Byte
  /-- The sound timer (R24). -/
  st       : Byte
  /-- The byte store (R25). -/
  mem      : Memory
  /-- The framebuffer (R32). -/
  fb       : Framebuffer
  /-- The key snapshot the host last supplied (R30). -/
  keys     : KeyFlags
  /-- The key snapshot of the last cycle (R31). -/
  keysPrev : KeyFlags
  /-- The run state, with the fault record when halted (R34, R35). -/
  run      : Run
  /-- The `rnd` input of the current Cycle (R39). -/
  rnd      : Byte
  /-- The transactions the host issues next, first one first (R37). -/
  host     : List Transaction
  /-- How many free inputs have been drawn (log 2). -/
  draws    : Nat
  /-- What the latest transaction returned (R37, R41). -/
  reply    : Reply
  deriving DecidableEq, Repr

/-- The state right after Reset (R36, R154). Memory lists nothing: an unlisted byte reads as Reset leaves it, the font bytes and zero elsewhere. The last four fields are DESIGN CHOICES (logs 1 to 4). -/
def State.reset : State :=
  { v        := Vector.replicate 16 0
    i        := 0
    pc       := BitVec.ofNat 16 Config.hw.origin
    stack    := []
    dt       := 0
    st       := 0
    mem      := []
    fb       := []
    keys     := Vector.replicate 16 false
    keysPrev := Vector.replicate 16 false
    run      := .unloaded
    rnd      := 0
    host     := []
    draws    := 0
    reply    := .nothing }

/-! ## How a step can stop -/

/-- A stop of the MODEL. The spec's own fatal errors are no stop: they are the run state Halted, a next state (R84). -/
inductive Fault where
  /-- Raised by the step that performs the host's destroy transaction: "After destruction no transaction is defined" (R158). Safe: the model stops where the spec defines nothing (log 9). -/
  | destroyed
  deriving DecidableEq, Repr

/-- No meaning for an instruction. -/
inductive Refusal where
  /-- Raised by an arm of `exec` whose instruction has no meaning yet, with its mnemonic; no arm does so in this model. Safe. -/
  | notModelled (mnemonic : String)
  deriving DecidableEq, Repr

end Sys2Proof.Machine
end

