-- ==== Sys2Proof/Machine/Ops.lean ====
section
/-! DEFINITION. The shared operations: one update for each field, the registers, the byte store with its bounds and protection, the stack, the framebuffer, and taking a fatal error. -/

namespace Sys2Proof.Machine

/-! ## Field updates and register access -/

def State.setV (s : State) (v : Vector Byte 16) : State := { s with v := v }
def State.setI (s : State) (a : Addr) : State := { s with i := a }
def State.setPc (s : State) (a : Addr) : State := { s with pc := a }
def State.setStack (s : State) (l : List Addr) : State := { s with stack := l }
def State.setDt (s : State) (b : Byte) : State := { s with dt := b }
def State.setSt (s : State) (b : Byte) : State := { s with st := b }
def State.setMem (s : State) (m : Memory) : State := { s with mem := m }
def State.setFb (s : State) (g : Framebuffer) : State := { s with fb := g }
def State.setKeys (s : State) (k : KeyFlags) : State := { s with keys := k }
def State.setKeysPrev (s : State) (k : KeyFlags) : State := { s with keysPrev := k }
def State.setRun (s : State) (r : Run) : State := { s with run := r }
def State.setRnd (s : State) (b : Byte) : State := { s with rnd := b }
def State.setHost (s : State) (l : List Transaction) : State := { s with host := l }
def State.setDraws (s : State) (k : Nat) : State := { s with draws := k }
def State.setReply (s : State) (r : Reply) : State := { s with reply := r }

/-- `V[x]` (00_scope.md R10). -/
def State.reg (s : State) (x : Reg) : Byte := s.v[x]

/-- `V[x] <- b`; no register is hard-wired (R15). -/
def State.setReg (s : State) (x : Reg) (b : Byte) : State := s.setV (s.v.set x b)

/-- The flag write, `V[F] <- b` (R16). A handler does it after the result, so the flag stands when X = F (R106). -/
def State.setFlag (s : State) (b : Byte) : State := s.setReg flagReg b

/-! ## The byte store (R25, R49) -/

/-- The byte Reset leaves at an address: the font from FONT_BASE, 0 elsewhere (R28, R29, R36). It is what an unlisted address reads as. -/
def resetByte (a : Nat) : Byte :=
  if Config.hw.fontBase ≤ a then Config.hw.font.getD (a - Config.hw.fontBase) 0 else 0

/-- `M[a]`. -/
def Memory.read : Memory → Nat → Byte
  | [], a => resetByte a
  | c :: m, a => if c.1 = a then c.2 else Memory.read m a

/-- Puts a cell before the first one of a higher address. -/
def Memory.insert (a : Nat) (b : Byte) : Memory → Memory
  | [] => [(a, b)]
  | c :: m => if a < c.1 then (a, b) :: c :: m else c :: Memory.insert a b m

/-- The store without address `a`: it then reads as after Reset. -/
def Memory.erase (m : Memory) (a : Nat) : Memory := m.filter fun c => c.1 != a

/-- `M[a] <- b`, keeping the canonical form. -/
def Memory.write (m : Memory) (a : Nat) (b : Byte) : Memory :=
  if b = resetByte a then m.erase a else Memory.insert a b (m.erase a)

/-- The canonical form: addresses inside the store and strictly rising, no cell equal to what its address reads as unlisted. -/
abbrev Memory.wf (m : Memory) : Prop :=
  m.Pairwise (fun c d => c.1 < d.1) ∧ ∀ c ∈ m, c.1 < Config.hw.memSize ∧ c.2 ≠ resetByte c.1

/-- The `n` bytes at `a`, `a + 1`, ..., lowest address first. -/
def Memory.readBytes (m : Memory) (a : Nat) : Nat → List Byte
  | 0 => []
  | n + 1 => m.read a :: Memory.readBytes m (a + 1) n

/-- The bytes written at `a`, `a + 1`, ..., in order. -/
def Memory.writeBytes (m : Memory) (a : Nat) : List Byte → Memory
  | [] => m
  | b :: l => Memory.writeBytes (m.write a b) (a + 1) l

/-! ## Checked accesses (R11, R52 to R55) -/

/-- What an access of `n` bytes at `addr` raises, if anything: MemoryOutOfBounds when it ends past the store, else WriteProtect for a write below ORIGIN (R52, R54, R55). The sum is taken on naturals. -/
def accessTrap (addr : Addr) (n : Nat) (kind : AccessKind) : Option Trap :=
  if Config.hw.memSize < addr.toNat + n then some ⟨.memoryOutOfBounds, some ⟨addr, n, kind⟩⟩
  else if kind = .write ∧ addr.toNat < Config.hw.origin then some ⟨.writeProtect, some ⟨addr, n, kind⟩⟩
  else none

/-- `MemRead(addr, n)`: checked in full before a byte is read (R11, R53). -/
def memRead (m : Memory) (addr : Addr) (n : Nat) : Except Trap (List Byte) :=
  match accessTrap addr n .read with
  | some t => .error t
  | none => .ok (m.readBytes addr.toNat n)

/-- `MemWrite(addr, n, v)`: checked in full before a byte is written (R11, R53). -/
def memWrite (m : Memory) (addr : Addr) (bytes : List Byte) : Except Trap Memory :=
  match accessTrap addr bytes.length .write with
  | some t => .error t
  | none => .ok (m.writeBytes addr.toNat bytes)

/-- The word at `a`: high byte from the lower address (R44). -/
def Memory.word (m : Memory) (a : Nat) : InstrWord := wordOfBytes (m.read a) (m.read (a + 1))

/-- `Fetch(addr)`: two bytes with the access kind `fetch` (R11, R79). -/
def memFetch (m : Memory) (addr : Addr) : Except Trap InstrWord :=
  match accessTrap addr 2 .fetch with
  | some t => .error t
  | none => .ok (m.word addr.toNat)

/-! ## Taking a fatal error (R12, R84, R142) -/

/-- The move to Halted, the machine's only exception entry: it saves the record `(reason, instr_addr, access)` and changes nothing else (R142). There is no return from it but Reset (R143). -/
def State.halt (s : State) (instrAddr : Addr) (t : Trap) : State :=
  s.setRun (.halted ⟨t.reason, instrAddr, t.access⟩)

/-- The address the running handler's word was fetched from: PC already holds it plus 2 (R17, R80). DEDUCED (log 6). -/
def State.instrAddr (s : State) : Addr := s.pc - 2

/-- `raise F(info)` in a handler: none of its writes take effect and PC stays `a + 2` (R12, R84). -/
def State.raise (s : State) (t : Trap) : State := s.halt s.instrAddr t

/-! ## The stack (R22) -/

/-- `push(v)`; raises StackOverflow when the stack is full (R22, R96). -/
def pushAddr (stack : List Addr) (a : Addr) : Except Trap (List Addr) :=
  if Config.hw.stackDepth ≤ stack.length then .error ⟨.stackOverflow, none⟩ else .ok (a :: stack)

/-- `pop()`; raises StackUnderflow when the stack is empty (R22, R94). -/
def popAddr : List Addr → Except Trap (Addr × List Addr)
  | [] => .error ⟨.stackUnderflow, none⟩
  | a :: stack => .ok (a, stack)

/-! ## The framebuffer (R32, R126 to R129) -/

/-- A pixel's place in the order of the screen. -/
def pixelIndex (p : Pixel) : Nat := p.2.val * 64 + p.1.val

/-- The canonical form: the pixels that are on, each once, in the order of the screen. -/
abbrev Framebuffer.wf (g : Framebuffer) : Prop := g.Pairwise fun p q => pixelIndex p < pixelIndex q

/-- `FB[px][py]`: whether the pixel is on. -/
def getPixel (g : Framebuffer) (p : Pixel) : Bool := g.contains p

/-- Puts a pixel before the first one that stands later on the screen. -/
def Framebuffer.insert (p : Pixel) : Framebuffer → Framebuffer
  | [] => [p]
  | q :: g => if pixelIndex p < pixelIndex q then p :: q :: g else q :: Framebuffer.insert p g

/-- `FB[px][py] <- b`, keeping the canonical form. -/
def setPixel (g : Framebuffer) (p : Pixel) (b : Bool) : Framebuffer :=
  if b then Framebuffer.insert p (g.filter fun q => q != p) else g.filter fun q => q != p

/-- Every pixel off (R125). -/
def clearScreen : Framebuffer := []

/-- `Place(x, y)`: the pixel drawn, or none where it is not visible (R128, R129). -/
def place : DrawEdge → Nat → Nat → Option Pixel
  | .wrap, x, y => some (Fin.ofNat 64 x, Fin.ofNat 32 y)
  | .clip, x, y => if h : x < 64 ∧ y < 32 then some (⟨x, h.1⟩, ⟨y, h.2⟩) else none

/-- The columns of a row byte whose bit is set, bit 7 being column 0 (R126). -/
def rowColumns (b : Byte) : List Nat := (List.range 8).filter fun c => b.getLsbD (7 - c)

/-- The pixels a row byte toggles, left to right, at column `x0` and row `y` (R127). -/
def rowPixels (e : DrawEdge) (x0 y : Nat) (b : Byte) : List Pixel :=
  (rowColumns b).filterMap fun c => place e (x0 + c) y

/-- The pixels a sprite toggles, row by row from row `y` down (R127). -/
def spritePixels (e : DrawEdge) (x0 y : Nat) : List Byte → List Pixel
  | [] => []
  | b :: rows => rowPixels e x0 y b ++ spritePixels e x0 (y + 1) rows

/-- Toggles each pixel in turn, and says whether one of them was on (R127). -/
def blit : List Pixel → Framebuffer → Framebuffer × Bool
  | [], g => (g, false)
  | p :: l, g =>
    let r := blit l (setPixel g p (!getPixel g p))
    (r.1, getPixel g p || r.2)

/-! ## Outputs (R40) -/

/-- `framebuffer()`. -/
def State.framebuffer (s : State) : Framebuffer := s.fb

/-- `sound_active()`: ST ≠ 0. -/
def State.soundActive (s : State) : Bool := s.st != 0

/-- `status()`: the run state, with the fault record when halted, and KeysPrev: all three pieces of R33 (R40; log 16). -/
def State.status (s : State) : Status := ⟨s.run, s.keysPrev⟩

/-- The codes of the fatal errors (R137). -/
def FatalError.code : FatalError → Nat
  | .stackUnderflow => 1
  | .stackOverflow => 2
  | .memoryOutOfBounds => 3
  | .writeProtect => 4

end Sys2Proof.Machine
end

