-- ==== Sys2Proof/Machine/Flags.lean ====
section
/-! DEFINITION. The values of VF (10_state.md R21); VX and VY are the values read at the start of the instruction. -/

namespace Sys2Proof.Machine

/-- `bool(c)` as a byte (00_scope.md R9). -/
def boolByte (c : Bool) : Byte := if c then 1 else 0

/-- ADD: 1 iff the sum exceeds 255 (R113). -/
def carryFlag (a b : Byte) : Byte := boolByte (255 < a.toNat + b.toNat)

/-- SUB and SUBN: 1 iff the minuend is not below the subtrahend (R114, R116). -/
def noBorrowFlag (minuend subtrahend : Byte) : Byte := boolByte (subtrahend.toNat ≤ minuend.toNat)

/-- SHR: bit 0 of the source (R115). -/
def shrFlag (b : Byte) : Byte := boolByte (b.getLsbD 0)

/-- SHL: bit 7 of the source (R117). -/
def shlFlag (b : Byte) : Byte := boolByte (b.getLsbD 7)

/-- DRW: 1 iff a toggled pixel was on (R127). -/
def collisionFlag (hit : Bool) : Byte := boolByte hit

end Sys2Proof.Machine
end

