-- ==== Sys2Proof/Machine/Operands.lean ====
section
/-! DEFINITION. The operand forms: what each field of a word stands for (30_encoding.md R66) and the forms derived from a register or from I. -/

namespace Sys2Proof.Machine

/-- NNN as an address: `zext_16(NNN)` (R66). -/
def nnnAddr (nnn : BitVec 12) : Addr := nnn.setWidth 16

/-- A byte as a 16-bit value, for sums with I and with NNN (R97, R120). -/
def byteAddr (b : Byte) : Addr := b.setWidth 16

/-- The low nibble of a register: a key index (R103, R104). -/
def lowNibble (b : Byte) : Reg := Fin.ofNat 16 b.toNat

/-- `FONT_BASE + GLYPH_SIZE * (V[X] & 0xF)` (R121). -/
def glyphAddr (b : Byte) : Addr := BitVec.ofNat 16 (Config.hw.fontBase + glyphSize * (lowNibble b).val)

/-- X as a count: X + 1 registers, V0 to VX (R123, R124). -/
def blockCount (x : Reg) : Nat := x.val + 1

/-- `V[0] ++ ... ++ V[X]`, the bytes a block store writes (R123). -/
def blockBytes (v : Vector Byte 16) (x : Reg) : List Byte := v.toList.take (blockCount x)

/-- The registers after a block load: `V[k] <- b[k]` for each byte `b[k]` read (R124). -/
def loadBlock (v : Vector Byte 16) (b : List Byte) : Vector Byte 16 :=
  Vector.ofFn fun k : Fin 16 => b.getD k.val v[k]

/-- I after a block transfer: `(I + X + 1) mod 2^16` (R123, R124). -/
def blockEnd (i : Addr) (x : Reg) : Addr := i + BitVec.ofNat 16 (blockCount x)

/-- The decimal digits of a byte: hundreds, tens, units (R122). -/
def bcdBytes (b : Byte) : List Byte :=
  [BitVec.ofNat 8 (b.toNat / 100), BitVec.ofNat 8 (b.toNat / 10 % 10), BitVec.ofNat 8 (b.toNat % 10)]

/-- N as a row count (R66). -/
def rowCount (n : BitVec 4) : Nat := n.toNat

/-- A key index as the byte a register receives (R86). -/
def keyByte (k : Reg) : Byte := BitVec.ofNat 8 k.val

end Sys2Proof.Machine
end

