-- ==== Sys2Proof/Machine/Alu.lean ====
section
/-! DEFINITION. Register arithmetic, logic, shifts and random (42_alu.md). Both operands are read before a result is written, and a flag is written after the result (R106). -/

namespace Sys2Proof.Machine

/-- The result into VX and then the flag into VF (R106). -/
def State.setRegFlag (s : State) (x : Reg) (result flag : Byte) : State :=
  (s.setReg x result).setFlag flag

/-- LD VX, NN (R107). -/
def execLdByte (x : Reg) (nn : Byte) (s : State) : Host.Outcome State Fault Refusal :=
  .next (s.setReg x nn)

/-- ADD VX, NN: no carry is recorded (R108). -/
def execAddByte (x : Reg) (nn : Byte) (s : State) : Host.Outcome State Fault Refusal :=
  .next (s.setReg x (s.reg x + nn))

/-- LD VX, VY (R109). -/
def execLdReg (x y : Reg) (s : State) : Host.Outcome State Fault Refusal :=
  .next (s.setReg x (s.reg y))

/-- OR VX, VY (R110). -/
def execOrReg (x y : Reg) (s : State) : Host.Outcome State Fault Refusal :=
  .next (s.setReg x (s.reg x ||| s.reg y))

/-- AND VX, VY (R111). -/
def execAndReg (x y : Reg) (s : State) : Host.Outcome State Fault Refusal :=
  .next (s.setReg x (s.reg x &&& s.reg y))

/-- XOR VX, VY (R112). -/
def execXorReg (x y : Reg) (s : State) : Host.Outcome State Fault Refusal :=
  .next (s.setReg x (s.reg x ^^^ s.reg y))

/-- ADD VX, VY with carry (R113). -/
def execAddReg (x y : Reg) (s : State) : Host.Outcome State Fault Refusal :=
  .next (s.setRegFlag x (s.reg x + s.reg y) (carryFlag (s.reg x) (s.reg y)))

/-- SUB VX, VY with borrow (R114). -/
def execSubReg (x y : Reg) (s : State) : Host.Outcome State Fault Refusal :=
  .next (s.setRegFlag x (s.reg x - s.reg y) (noBorrowFlag (s.reg x) (s.reg y)))

/-- SHR VX, VY: VY is the source (R115). -/
def execShrReg (x y : Reg) (s : State) : Host.Outcome State Fault Refusal :=
  .next (s.setRegFlag x (s.reg y >>> 1) (shrFlag (s.reg y)))

/-- SUBN VX, VY (R116). -/
def execSubnReg (x y : Reg) (s : State) : Host.Outcome State Fault Refusal :=
  .next (s.setRegFlag x (s.reg y - s.reg x) (noBorrowFlag (s.reg y) (s.reg x)))

/-- SHL VX, VY: VY is the source (R117). -/
def execShlReg (x y : Reg) (s : State) : Host.Outcome State Fault Refusal :=
  .next (s.setRegFlag x (s.reg y <<< 1) (shlFlag (s.reg y)))

/-- RND VX, NN: `rnd & NN`, with `rnd` the input of the current Cycle (R118). -/
def execRndByte (x : Reg) (nn : Byte) (s : State) : Host.Outcome State Fault Refusal :=
  .next (s.setReg x (s.rnd &&& nn))

end Sys2Proof.Machine
end

