-- ==== Sys2Proof/Machine/ControlFlow.lean ====
section
/-! DEFINITION. Control transfer and skips (41_control_flow.md). Every meaning runs with PC = a + 2 (R80). -/

namespace Sys2Proof.Machine

/-- SYS NNN: no operation, no report (R93). -/
def execSys (_nnn : BitVec 12) (s : State) : Host.Outcome State Fault Refusal := .next s

/-- RET (R94). -/
def execRet (s : State) : Host.Outcome State Fault Refusal :=
  match popAddr s.stack with
  | .error t => .next (s.raise t)
  | .ok (a, rest) => .next ((s.setStack rest).setPc a)

/-- JP NNN (R95). -/
def execJp (nnn : BitVec 12) (s : State) : Host.Outcome State Fault Refusal :=
  .next (s.setPc (nnnAddr nnn))

/-- CALL NNN: PC is the return address (R96). -/
def execCall (nnn : BitVec 12) (s : State) : Host.Outcome State Fault Refusal :=
  match pushAddr s.stack s.pc with
  | .error t => .next (s.raise t)
  | .ok stack => .next ((s.setStack stack).setPc (nnnAddr nnn))

/-- BNNN under each `BNNN_MODE` (R97). -/
def jumpIndexed (mode : BnnnMode) (nnn : BitVec 12) (s : State) : State :=
  match mode with
  | .jump => s.setPc (nnnAddr nnn + byteAddr (s.reg 0))
  | .index => s.setI (nnnAddr nnn + byteAddr (s.reg 0))

/-- JP V0, NNN, in this hardware's mode (R97). -/
def execJpV0 (nnn : BitVec 12) (s : State) : Host.Outcome State Fault Refusal :=
  .next (jumpIndexed Config.hw.bnnnMode nnn s)

/-- The common skip rule (R98). -/
def skipIf (c : Bool) (s : State) : State := if c then s.setPc (s.pc + 2) else s

/-- SE VX, NN (R99). -/
def execSeByte (x : Reg) (nn : Byte) (s : State) : Host.Outcome State Fault Refusal :=
  .next (skipIf (s.reg x == nn) s)

/-- SNE VX, NN (R100). -/
def execSneByte (x : Reg) (nn : Byte) (s : State) : Host.Outcome State Fault Refusal :=
  .next (skipIf (s.reg x != nn) s)

/-- SE VX, VY (R101). -/
def execSeReg (x y : Reg) (s : State) : Host.Outcome State Fault Refusal :=
  .next (skipIf (s.reg x == s.reg y) s)

/-- SNE VX, VY (R102). -/
def execSneReg (x y : Reg) (s : State) : Host.Outcome State Fault Refusal :=
  .next (skipIf (s.reg x != s.reg y) s)

/-- `Keys[k]` (R30). -/
def State.key (s : State) (k : Reg) : Bool := s.keys[k]

/-- SKP VX (R103). -/
def execSkp (x : Reg) (s : State) : Host.Outcome State Fault Refusal :=
  .next (skipIf (s.key (lowNibble (s.reg x))) s)

/-- SKNP VX (R104). -/
def execSknp (x : Reg) (s : State) : Host.Outcome State Fault Refusal :=
  .next (skipIf (!s.key (lowNibble (s.reg x))) s)

end Sys2Proof.Machine
end

