-- ==== Sys2Proof/Machine/Display.lean ====
section
/-! DEFINITION. The framebuffer instructions (44_display.md). -/

namespace Sys2Proof.Machine

/-- CLS; VF unchanged (R125). -/
def execCls (s : State) : Host.Outcome State Fault Refusal := .next (s.setFb clearScreen)

/-- The rows of a sprite: N bytes at I, and no access when N = 0 (R127). -/
def spriteRows (m : Memory) (i : Addr) (n : BitVec 4) : Except Trap (List Byte) :=
  if n = 0 then .ok [] else memRead m i (rowCount n)

/-- Draws the rows at column VX and row VY and then writes the collision flag (R127). -/
def drawRows (e : DrawEdge) (x y : Reg) (rows : List Byte) (s : State) : State :=
  let r := blit (spritePixels e (s.reg x).toNat (s.reg y).toNat rows) s.fb
  (s.setFb r.1).setFlag (collisionFlag r.2)

/-- DRW under an edge policy (R127 to R129). -/
def drawSprite (e : DrawEdge) (x y : Reg) (n : BitVec 4) (s : State) : State :=
  match spriteRows s.mem s.i n with
  | .error t => s.raise t
  | .ok rows => drawRows e x y rows s

/-- DRW VX, VY, N, under this hardware's policy (R127, R128). -/
def execDrw (x y : Reg) (n : BitVec 4) (s : State) : Host.Outcome State Fault Refusal :=
  .next (drawSprite Config.hw.drawEdge x y n s)

end Sys2Proof.Machine
end

