-- ==== Sys2Proof/Machine/IndexMemory.lean ====
section
/-! DEFINITION. The index register and memory transfer (43_index_memory.md). A faulting instruction changes nothing, I included. -/

namespace Sys2Proof.Machine

/-- LD I, NNN (R119). -/
def execLdI (nnn : BitVec 12) (s : State) : Host.Outcome State Fault Refusal :=
  .next (s.setI (nnnAddr nnn))

/-- ADD I, VX (R120). -/
def execAddI (x : Reg) (s : State) : Host.Outcome State Fault Refusal :=
  .next (s.setI (s.i + byteAddr (s.reg x)))

/-- LD F, VX (R121). -/
def execLdF (x : Reg) (s : State) : Host.Outcome State Fault Refusal :=
  .next (s.setI (glyphAddr (s.reg x)))

/-- LD B, VX (R122). -/
def execLdB (x : Reg) (s : State) : Host.Outcome State Fault Refusal :=
  match memWrite s.mem s.i (bcdBytes (s.reg x)) with
  | .error t => .next (s.raise t)
  | .ok m => .next (s.setMem m)

/-- LD [I], VX (R123). -/
def execStoreRegs (x : Reg) (s : State) : Host.Outcome State Fault Refusal :=
  match memWrite s.mem s.i (blockBytes s.v x) with
  | .error t => .next (s.raise t)
  | .ok m => .next ((s.setMem m).setI (blockEnd s.i x))

/-- LD VX, [I] (R124). -/
def execLoadRegs (x : Reg) (s : State) : Host.Outcome State Fault Refusal :=
  match memRead s.mem s.i (blockCount x) with
  | .error t => .next (s.raise t)
  | .ok b => .next ((s.setV (loadBlock s.v b)).setI (blockEnd s.i x))

end Sys2Proof.Machine
end

