-- ==== Sys2Proof/Machine/TimersInput.lean ====
section
/-! DEFINITION. The timer instructions and the key wait (45_timers_input.md). The ticks of the cycle come after the instruction (R88). -/

namespace Sys2Proof.Machine

/-- LD VX, DT (R130). -/
def execLdVxDt (x : Reg) (s : State) : Host.Outcome State Fault Refusal :=
  .next (s.setReg x s.dt)

/-- LD DT, VX (R131). -/
def execLdDtVx (x : Reg) (s : State) : Host.Outcome State Fault Refusal :=
  .next (s.setDt (s.reg x))

/-- LD ST, VX (R132). -/
def execLdStVx (x : Reg) (s : State) : Host.Outcome State Fault Refusal :=
  .next (s.setSt (s.reg x))

/-- LD VX, K: the core waits; the key arrives in a later cycle (R133). -/
def execLdVxK (x : Reg) (s : State) : Host.Outcome State Fault Refusal :=
  .next (s.setRun (.awaitKey x))

end Sys2Proof.Machine
end

