-- ==== Sys2Proof/Machine/Cycle.lean ====
section
/-! DEFINITION. The host's transactions: the Cycle (40_cycle.md R78 to R92), Reset and Load (70_reset_and_hazards.md R154 to R156), SetKeys, the reads and destruction (10_state.md R37, R40; R158). -/

namespace Sys2Proof.Machine

/-! ## The end of a cycle (R88, R89, R91) -/

/-- `max(0, T - ticks)` (R89). -/
def tickDown (ticks : Nat) (b : Byte) : Byte := BitVec.ofNat 8 (b.toNat - ticks)

/-- `KeysPrev <- Keys` and then the timer ticks; the cycle returns `events` (R88 steps 4 and 5). -/
def finishCycle (ticks : Nat) (events : List Event) (s : State) : State :=
  { s with
    keysPrev := s.keys
    dt := tickDown ticks s.dt
    st := tickDown ticks s.st
    reply := .events events }

/-- A cycle that ends without the steps of `finishCycle`: a no-op cycle or one that faults (R84, R90). It returns no event. -/
def endQuietly (s : State) : State := s.setReply (.events [])

/-! ## The awaiting-key state (R86, R87) -/

/-- Whether key `k` is newly pressed (R87). -/
def State.newlyPressed (s : State) (k : Reg) : Bool := s.keys[k] && !s.keysPrev[k]

/-- The least newly pressed key (R87). -/
def State.newKey (s : State) : Option Reg := (List.finRange 16).find? fun k => s.newlyPressed k

/-- What a waiting cycle does before its ticks: on a new key, `V[x] <- k` and Run <- Running (R86). -/
def takeKey (x : Reg) (s : State) : State :=
  match s.newKey with
  | some k => (s.setReg x (keyByte k)).setRun .running
  | none => s

/-! ## A running cycle -/

/-- The state a handler starts from: PC = a + 2 and the cycle's `rnd` latched (R80, R81). -/
def State.enter (s : State) (rnd : Byte) : State := (s.setPc (s.pc + 2)).setRnd rnd

/-- After a handler: a fatal error ends the cycle at once (R84), else the end of the cycle follows (R88). -/
def afterExecute (ticks : Nat) (s : State) : State :=
  match s.run with
  | .halted _ => endQuietly s
  | _ => finishCycle ticks [] s

/-- Runs one decoded instruction and ends the cycle (R81, R84, R88). -/
def executeCycle (ticks : Nat) (rnd : Byte) (i : Instr) (s : State) : Host.Outcome State Fault Refusal :=
  match exec i (s.enter rnd) with
  | .next t => .next (afterExecute ticks t)
  | .fault f => .fault f
  | .refused r => .refused r

/-- Fetch, PC advance, decode, execute, end of cycle (R79 to R84, R88). -/
def runningCycle (ticks : Nat) (rnd : Byte) (s : State) : Host.Outcome State Fault Refusal :=
  match memFetch s.mem s.pc with
  | .error t => .next (endQuietly (s.halt s.pc t))
  | .ok w =>
    match decode w with
    | .error _ => .next (finishCycle ticks [.unknownOpcode s.pc w] (s.enter rnd))
    | .ok i => executeCycle ticks rnd i s

/-- `Cycle(ticks, rnd)` (R78, R92). -/
def cycle (ticks : Nat) (rnd : Byte) (s : State) : Host.Outcome State Fault Refusal :=
  match s.run with
  | .unloaded => .next (endQuietly s)
  | .halted _ => .next (endQuietly s)
  | .awaitKey x => .next (finishCycle ticks [] (takeKey x s))
  | .running => runningCycle ticks rnd s

/-! ## Reset and Load -/

/-- `Reset()`: every piece of core state at its reset value; the host's coming transactions and the count of free inputs are not core state and stay (R154; logs 1 and 2). -/
def resetCore (s : State) : State := { State.reset with host := s.host, draws := s.draws }

/-- The run state after a Load that succeeds (R155). -/
def runAfterLoad : Run → Run
  | .halted f => .halted f
  | _ => .running

/-- `Load(bytes)` (R155, R156). -/
def loadProgram (bytes : List Byte) (s : State) : State :=
  if Config.hw.memSize - Config.hw.origin < bytes.length then s.setReply .loadTooLarge
  else
    { s with
      mem := s.mem.writeBytes Config.hw.origin bytes
      pc := BitVec.ofNat 16 Config.hw.origin
      run := runAfterLoad s.run
      reply := .loadOk }

/-! ## Transactions -/

/-- One transaction, atomic as a whole (R37, R42, R48). -/
def perform (t : Transaction) (s : State) : Host.Outcome State Fault Refusal :=
  match t with
  | .reset => .next (resetCore s)
  | .load bytes => .next (loadProgram bytes s)
  | .setKeys k => .next ((s.setKeys k).setReply .nothing)
  | .cycle ticks rnd => cycle ticks rnd s
  | .readFramebuffer => .next (s.setReply (.framebuffer s.framebuffer))
  | .readSoundActive => .next (s.setReply (.soundActive s.soundActive))
  | .readStatus => .next (s.setReply (.status s.status))
  | .destroy => .fault .destroyed

/-- The host's next transaction: the first of its list, or, when the list is empty, a Cycle with free inputs (R38, R39; logs 1 and 2). -/
def nextTransaction (s : State) : Host.Outcome State Fault Refusal :=
  match s.host with
  | t :: rest => perform t (s.setHost rest)
  | [] => cycle (Config.freeTicks s.draws) (Config.freeRnd s.draws) (s.setDraws (s.draws + 1))

/-! ## Placing one instruction where the next step fetches -/

/-- Whether a transaction is a Cycle. -/
def Transaction.isCycle : Transaction → Bool
  | .cycle _ _ => true
  | .reset | .load _ | .setKeys _ | .readFramebuffer | .readSoundActive | .readStatus | .destroy => false

/-- Where the next fetch can read: PC, or ORIGIN when no word lies at PC. -/
def fetchPlace (s : State) : Addr :=
  if s.pc.toNat + 2 ≤ Config.hw.memSize then s.pc else BitVec.ofNat 16 Config.hw.origin

/-- The state with word `w` where the next fetch reads, in Running, the next transaction being a Cycle (log 10). -/
def placeWord (s : State) (w : InstrWord) : State :=
  { s with
    mem := s.mem.writeBytes (fetchPlace s).toNat [hiByte w, loByte w]
    pc := fetchPlace s
    run := .running
    host := s.host.dropWhile fun t => !t.isCycle }

end Sys2Proof.Machine
end

