-- ==== Sys2Proof/Machine/Step.lean ====
section
/-! DEFINITION. One step is one transaction of the host (40_cycle.md: "One Cycle transaction is one step"; 10_state.md R37). -/

namespace Sys2Proof.Machine

/-- The next transaction, as one atomic state transition. -/
def step (s : State) : Host.Outcome State Fault Refusal := nextTransaction s

/-- The state whose very next step fetches and runs the table word `w` of `nbits` bits (log 10). -/
def State.withFetchWord (s : State) (nbits w : Nat) : State := placeWord s (tableWord nbits w)

end Sys2Proof.Machine
end

