-- ==== Sys2Proof/Safety.lean ====
section
/-! DEFINITION. What claims call a good state: the form of the stored data, the protected bytes, the fault record and the bounds of PC. -/

namespace Sys2Proof.Machine

/-- No byte below ORIGIN is listed: the font and the reserved bytes read as Reset leaves them (R50, R160). -/
abbrev Memory.LowIntact (m : Memory) : Prop := ∀ c ∈ m, Config.hw.origin ≤ c.1

/-- The stack holds at most STACK_DEPTH entries (R22). -/
abbrev StackBounded (stack : List Addr) : Prop := stack.length ≤ Config.hw.stackDepth

/-- What R35 and R137 say of a fault record: a stack fault has no access. A memory fault has one, and its numbers show the fault. -/
def FaultRecord.Consistent (f : FaultRecord) : Prop :=
  match f.reason, f.access with
  | .stackUnderflow, none => True
  | .stackOverflow, none => True
  | .memoryOutOfBounds, some a => Config.hw.memSize < a.addr.toNat + a.n
  | .writeProtect, some a =>
      a.kind = .write ∧ a.addr.toNat < Config.hw.origin ∧ a.addr.toNat + a.n ≤ Config.hw.memSize
  | _, _ => False

/-- The run state's fault record, when there is one, is consistent. -/
def Run.Consistent : Run → Prop
  | .halted f => f.Consistent
  | .unloaded => True
  | .running => True
  | .awaitKey _ => True

/-- The highest value PC takes: BNNN with NNN = 0xFFF and V0 = 0xFF (R97; log 15). -/
abbrev maxPc : Nat := 0x10FE

/-- PC stays so low that no PC sum reaches 2^16, and every return address is one a fetch has advanced to (R17). -/
structure PcBounded (s : State) : Prop where
  pc    : s.pc.toNat ≤ maxPc
  stack : ∀ a ∈ s.stack, a.toNat ≤ Config.hw.memSize

/-- PC and every return address are even (R19). -/
structure PcEven (s : State) : Prop where
  pc    : s.pc.toNat % 2 = 0
  stack : ∀ a ∈ s.stack, a.toNat % 2 = 0

/-- The form of the stored data that every step keeps. -/
structure State.Good (s : State) : Prop where
  mem   : s.mem.wf
  low   : s.mem.LowIntact
  fb    : Framebuffer.wf s.fb
  stack : StackBounded s.stack
  run   : s.run.Consistent

/-- The next transaction is a Cycle with these inputs, and `s0` is the state it starts from: the host's list gives them, or it is empty and they are free (R38, R39; logs 1 and 2). -/
def NextCycle (s : State) (ticks : Nat) (rnd : Byte) (s0 : State) : Prop :=
  (∃ rest, s.host = .cycle ticks rnd :: rest ∧ s0 = s.setHost rest) ∨
  (s.host = [] ∧ ticks = Config.freeTicks s.draws ∧ rnd = Config.freeRnd s.draws ∧
    s0 = s.setDraws (s.draws + 1))

/-! ## The terms of the statements -/

/-- `w` is a 16-bit word that decodes to `i`. -/
abbrev IsWordOf (w : Nat) (i : Instr) : Prop := w < 0x10000 ∧ decode (BitVec.ofNat 16 w) = .ok i

/-- `t` differs from `s` in general registers at most. -/
abbrev OnlyRegisters (s t : State) : Prop := t = { s with v := t.v }

/-- VX holds `result`, and nothing else differs. -/
def OnlyResult (s t : State) (x : Reg) (result : Nat) : Prop :=
  (t.reg x).toNat = result ∧ (∀ r, r ≠ x → t.reg r = s.reg r) ∧ OnlyRegisters s t

/-- VF holds `flag`, VX holds `result` unless it is VF, and nothing else differs (R106). -/
def ResultAndFlag (s t : State) (x : Reg) (result flag : Nat) : Prop :=
  (x ≠ flagReg → (t.reg x).toNat = result) ∧ (t.reg flagReg).toNat = flag ∧
  (∀ r, r ≠ x → r ≠ flagReg → t.reg r = s.reg r) ∧ OnlyRegisters s t

/-- `s` with PC after a skip whose condition is `c` (R98). -/
def Skipped (c : Prop) [Decidable c] (s : State) : State := { s with pc := if c then s.pc + 2 else s.pc }

/-- Row `r` and column `c` of the `n`-row sprite at I hold a set bit (R126). -/
def SpriteBit (s : State) (n : BitVec 4) (r c : Nat) : Prop :=
  r < n.toNat ∧ c < 8 ∧ (s.mem.read (s.i.toNat + r)).getLsbD (7 - c) = true

/-- Pixel `p` is one that DRW VX, VY, N toggles when coordinates wrap (R127, R128). -/
def CoversWrapped (s : State) (x y : Reg) (n : BitVec 4) (p : Pixel) : Prop :=
  ∃ r c, SpriteBit s n r c ∧ p.1.val = ((s.reg x).toNat + c) % 64 ∧ p.2.val = ((s.reg y).toNat + r) % 32

/-- Pixel `p` is one that DRW VX, VY, N toggles when coordinates are clipped (R127, R129). -/
def CoversClipped (s : State) (x y : Reg) (n : BitVec 4) (p : Pixel) : Prop :=
  ∃ r c, SpriteBit s n r c ∧ p.1.val = (s.reg x).toNat + c ∧ p.2.val = (s.reg y).toNat + r

/-- `t` is `s` after toggling the pixels of `cover`: VF tells whether one of them was on, and nothing but the framebuffer and VF differs (R127). -/
def Drawn (cover : Pixel → Prop) (s t : State) : Prop :=
  (∀ p, (cover p → getPixel t.fb p = !getPixel s.fb p) ∧ (¬cover p → getPixel t.fb p = getPixel s.fb p)) ∧
  ((∃ p, cover p ∧ getPixel s.fb p = true) → t.reg flagReg = 1) ∧
  ((¬∃ p, cover p ∧ getPixel s.fb p = true) → t.reg flagReg = 0) ∧
  (∀ r, r ≠ flagReg → t.reg r = s.reg r) ∧
  t = { s with v := t.v, fb := t.fb }

/-- Where an instruction sets PC to a target of its own, the target is even (R19). RET is not meant: its target comes from the stack. -/
def TargetEven (s : State) : Instr → Prop
  | .jp nnn => nnn.toNat % 2 = 0
  | .call nnn => nnn.toNat % 2 = 0
  | .jpV0 nnn => (nnn.toNat + (s.reg 0).toNat) % 2 = 0
  | .cls | .ret | .sys _ | .ldI _ => True
  | .seByte _ _ | .sneByte _ _ | .ldByte _ _ | .addByte _ _ | .rndByte _ _ => True
  | .seReg _ _ | .sneReg _ _ | .ldReg _ _ | .orReg _ _ | .andReg _ _ | .xorReg _ _ => True
  | .addReg _ _ | .subReg _ _ | .shrReg _ _ | .subnReg _ _ | .shlReg _ _ => True
  | .drw _ _ _ => True
  | .skp _ | .sknp _ | .ldVxDt _ | .ldVxK _ | .ldDtVx _ | .ldStVx _ => True
  | .addI _ | .ldF _ | .ldB _ | .storeRegs _ | .loadRegs _ => True

/-- The word at PC, the byte at PC being its high half (R44, R79). -/
def wordAtPc (s : State) : InstrWord :=
  BitVec.ofNat 16 ((s.mem.read s.pc.toNat).toNat * 256 + (s.mem.read (s.pc.toNat + 1)).toNat)

/-- A timer after `ticks` (R89). -/
def timerAfter (b : Byte) (ticks : Nat) : Byte := BitVec.ofNat 8 (b.toNat - ticks)

/-- `t` after a cycle that raised no fatal error: KeysPrev, the ticks, and the events returned (R88). -/
def Finished (t : State) (ticks : Nat) (events : List Event) : State :=
  { t with keysPrev := t.keys, dt := timerAfter t.dt ticks, st := timerAfter t.st ticks, reply := .events events }

/-- The core halted on a fault of the instruction at `a`, and nothing else differs (R84). -/
def HaltedAt (s : State) (a : Addr) (reason : FatalError) (access : Option Access) : State :=
  { s with run := .halted ⟨reason, a, access⟩ }

/-- No key is newly pressed (R87). -/
abbrev NoNewKey (s : State) : Prop := ∀ k : Reg, s.keys[k] = true → s.keysPrev[k] = true

end Sys2Proof.Machine
end

