-- ==== Sys2Proof/Certificates/Slice0/Obligations.lean ====
section
/-! DEFINITION. The statements for the provers. Each docstring names the rule of spec/ it formalises. In a statement about `exec`, PC is already past the instruction, as a handler sees it (R80); `a` is the address the instruction was fetched from. -/

open Sys2Proof Sys2Proof.Machine

/-! ## Encoding -/

/-- Decode and encode agree on the bytes of every well-formed instruction, with every operand and whatever bytes follow (R63, R65, R67). -/
def Obligations.DecodeEncodeBytesRoundTrip : Prop :=
  ∀ (i : Instr) (rest : List Byte), i.wf = true → decodeBytes (encodeBytes i ++ rest) = .ok (i, rest)

/-- The other direction: a word that decodes is the word of the well-formed instruction it decodes to, so each word has one meaning (R67, R68). -/
def Obligations.DecodedWordIsEncoding : Prop :=
  ∀ (w : InstrWord) (i : Instr), decode w = .ok i → i.wf = true ∧ encode i = w

/-- R74: the unknown opcodes are exactly the five listed forms. (The rule's counts are not stated.) -/
def Obligations.UnknownOpcodesAreTheListedForms : Prop :=
  ∀ w : InstrWord, (∃ e, decode w = .error e) ↔
    (w.toNat / 0x1000 = 0x5 ∧ w.toNat % 0x10 ≠ 0) ∨
    (w.toNat / 0x1000 = 0x8 ∧ w.toNat % 0x10 ∈ [0x8, 0x9, 0xA, 0xB, 0xC, 0xD, 0xF]) ∨
    (w.toNat / 0x1000 = 0x9 ∧ w.toNat % 0x10 ≠ 0) ∨
    (w.toNat / 0x1000 = 0xE ∧ w.toNat % 0x100 ∉ [0x9E, 0xA1]) ∨
    (w.toNat / 0x1000 = 0xF ∧ w.toNat % 0x100 ∉ [0x07, 0x0A, 0x15, 0x18, 0x1E, 0x29, 0x33, 0x55, 0x65])

/-- A few words of 95_test_vectors.md 2.1 and of the rules' examples decode as written there (R65, R67). -/
def Obligations.SampleWordsDecode : Prop :=
  decode 0x00E0 = .ok .cls ∧ decode 0x0FFF = .ok (.sys 0xFFF) ∧ decode 0xB123 = .ok (.jpV0 0x123) ∧
  decode 0x6005 = .ok (.ldByte 0 5) ∧ decode 0x8014 = .ok (.addReg 0 1) ∧ decode 0x5120 = .ok (.seReg 1 2) ∧
  decode 0xD125 = .ok (.drw 1 2 5) ∧ decode 0xFF65 = .ok (.loadRegs 0xF) ∧
  decode 0x5FFF = .error .unknownFamily5

/-! ## Control transfer and skips -/

/-- SYS does nothing (R93), and a running cycle that fetches it reports nothing, advances PC (R80), updates KeysPrev and the timers (R88, R89, R91) and nothing else. That the cycle latches `rnd` in a field and leaves its events in another is the model's choice (logs 3 and 4). -/
def Obligations.SysDoesNothing : Prop :=
  ∀ (nnn : BitVec 12) (s : State),
    (nnn ≠ 0x0E0 → nnn ≠ 0x0EE → IsWordOf nnn.toNat (.sys nnn)) ∧ exec (.sys nnn) s = .next s ∧
    ∀ (ticks : Nat) (rnd : Byte), s.run = .running → s.pc.toNat + 2 ≤ 4096 → decode (wordAtPc s) = .ok (.sys nnn) →
      cycle ticks rnd s = .next (Finished { s with pc := s.pc + 2, rnd := rnd } ticks [])

/-- R94: RET pops PC, and faults on an empty stack. -/
def Obligations.RetPopsPc : Prop :=
  IsWordOf 0x00EE .ret ∧
  (∀ (s : State) (r : Addr) (rest : List Addr), s.stack = r :: rest →
    exec .ret s = .next { s with pc := r, stack := rest }) ∧
  (∀ (s : State) (a : Addr), s.stack = [] → s.pc = a + 2 →
    exec .ret s = .next (HaltedAt s a .stackUnderflow none))

/-- R95: JP sets PC to NNN. -/
def Obligations.JpSetsPc : Prop :=
  ∀ (nnn : BitVec 12) (s : State),
    IsWordOf (0x1000 + nnn.toNat) (.jp nnn) ∧
    exec (.jp nnn) s = .next { s with pc := BitVec.ofNat 16 nnn.toNat }

/-- R96: CALL pushes PC and sets it to NNN, and faults on a full stack. -/
def Obligations.CallPushesPc : Prop :=
  ∀ (nnn : BitVec 12) (s : State),
    IsWordOf (0x2000 + nnn.toNat) (.call nnn) ∧
    (s.stack.length < 16 →
      exec (.call nnn) s = .next { s with stack := s.pc :: s.stack, pc := BitVec.ofNat 16 nnn.toNat }) ∧
    (∀ a : Addr, s.stack.length = 16 → s.pc = a + 2 →
      exec (.call nnn) s = .next (HaltedAt s a .stackOverflow none))

/-- R97: JP V0 sets PC to NNN + V0 in this hardware's mode, which is `jump`; in the mode `index` the same sum goes to I. -/
def Obligations.JpV0AddsV0 : Prop :=
  ∀ (nnn : BitVec 12) (s : State),
    IsWordOf (0xB000 + nnn.toNat) (.jpV0 nnn) ∧
    exec (.jpV0 nnn) s = .next { s with pc := BitVec.ofNat 16 (nnn.toNat + (s.reg 0).toNat) } ∧
    exec (.jpV0 nnn) s = .next (jumpIndexed .jump nnn s) ∧
    jumpIndexed .index nnn s = { s with i := BitVec.ofNat 16 ((nnn.toNat + (s.reg 0).toNat) % 0x10000) }

/-- R99, R100: the skips on a byte. -/
def Obligations.ByteSkipsCompare : Prop :=
  ∀ (x : Reg) (nn : Byte) (s : State),
    IsWordOf (0x3000 + 0x100 * x.val + nn.toNat) (.seByte x nn) ∧
    IsWordOf (0x4000 + 0x100 * x.val + nn.toNat) (.sneByte x nn) ∧
    exec (.seByte x nn) s = .next (Skipped (s.reg x = nn) s) ∧
    exec (.sneByte x nn) s = .next (Skipped (s.reg x ≠ nn) s)

/-- R101, R102: the skips on two registers. -/
def Obligations.RegisterSkipsCompare : Prop :=
  ∀ (x y : Reg) (s : State),
    IsWordOf (0x5000 + 0x100 * x.val + 0x10 * y.val) (.seReg x y) ∧
    IsWordOf (0x9000 + 0x100 * x.val + 0x10 * y.val) (.sneReg x y) ∧
    (∀ n : Nat, 0 < n → n < 16 → ∀ i,
      ¬IsWordOf (0x5000 + 0x100 * x.val + 0x10 * y.val + n) i ∧
      ¬IsWordOf (0x9000 + 0x100 * x.val + 0x10 * y.val + n) i) ∧
    exec (.seReg x y) s = .next (Skipped (s.reg x = s.reg y) s) ∧
    exec (.sneReg x y) s = .next (Skipped (s.reg x ≠ s.reg y) s)

/-- R103, R104: the skips on a key, whose index is the low nibble of VX. -/
def Obligations.KeySkipsTestKey : Prop :=
  ∀ (x k : Reg) (s : State), k.val = (s.reg x).toNat % 16 →
    IsWordOf (0xE09E + 0x100 * x.val) (.skp x) ∧
    IsWordOf (0xE0A1 + 0x100 * x.val) (.sknp x) ∧
    exec (.skp x) s = .next (Skipped (s.keys[k] = true) s) ∧
    exec (.sknp x) s = .next (Skipped (s.keys[k] = false) s)

/-! ## Register arithmetic -/

/-- R107: LD VX, NN. -/
def Obligations.LdByteLoads : Prop :=
  ∀ (x : Reg) (nn : Byte) (s : State),
    IsWordOf (0x6000 + 0x100 * x.val + nn.toNat) (.ldByte x nn) ∧
    ∃ t, exec (.ldByte x nn) s = .next t ∧ OnlyResult s t x nn.toNat

/-- R108: ADD VX, NN wraps and records no carry. -/
def Obligations.AddByteWrapsWithoutCarry : Prop :=
  ∀ (x : Reg) (nn : Byte) (s : State),
    IsWordOf (0x7000 + 0x100 * x.val + nn.toNat) (.addByte x nn) ∧
    ∃ t, exec (.addByte x nn) s = .next t ∧ OnlyResult s t x (((s.reg x).toNat + nn.toNat) % 256)

/-- R109: LD VX, VY. -/
def Obligations.LdRegCopies : Prop :=
  ∀ (x y : Reg) (s : State),
    IsWordOf (0x8000 + 0x100 * x.val + 0x10 * y.val) (.ldReg x y) ∧
    ∃ t, exec (.ldReg x y) s = .next t ∧ OnlyResult s t x (s.reg y).toNat

/-- R110, R111, R112: OR, AND and XOR, and no flag. -/
def Obligations.LogicOpsAreBitwise : Prop :=
  ∀ (x y : Reg) (s : State),
    IsWordOf (0x8001 + 0x100 * x.val + 0x10 * y.val) (.orReg x y) ∧
    IsWordOf (0x8002 + 0x100 * x.val + 0x10 * y.val) (.andReg x y) ∧
    IsWordOf (0x8003 + 0x100 * x.val + 0x10 * y.val) (.xorReg x y) ∧
    (∃ t, exec (.orReg x y) s = .next t ∧ OnlyResult s t x ((s.reg x).toNat ||| (s.reg y).toNat)) ∧
    (∃ t, exec (.andReg x y) s = .next t ∧ OnlyResult s t x ((s.reg x).toNat &&& (s.reg y).toNat)) ∧
    (∃ t, exec (.xorReg x y) s = .next t ∧ OnlyResult s t x ((s.reg x).toNat ^^^ (s.reg y).toNat))

/-- R113: ADD VX, VY with the carry in VF. -/
def Obligations.AddRegCarries : Prop :=
  ∀ (x y : Reg) (s : State),
    IsWordOf (0x8004 + 0x100 * x.val + 0x10 * y.val) (.addReg x y) ∧
    ∃ t, exec (.addReg x y) s = .next t ∧
      ResultAndFlag s t x (((s.reg x).toNat + (s.reg y).toNat) % 256)
        (if 255 < (s.reg x).toNat + (s.reg y).toNat then 1 else 0)

/-- R114: SUB, VX - VY, with VF 0 exactly on a borrow. -/
def Obligations.SubRegBorrows : Prop :=
  ∀ (x y : Reg) (s : State),
    IsWordOf (0x8005 + 0x100 * x.val + 0x10 * y.val) (.subReg x y) ∧
    ∃ t, exec (.subReg x y) s = .next t ∧
      ResultAndFlag s t x (((s.reg x).toNat + 256 - (s.reg y).toNat) % 256)
        (if (s.reg x).toNat < (s.reg y).toNat then 0 else 1)

/-- R115: SHR shifts VY into VX, and bit 0 of VY goes to VF. -/
def Obligations.ShrRegShiftsVy : Prop :=
  ∀ (x y : Reg) (s : State),
    IsWordOf (0x8006 + 0x100 * x.val + 0x10 * y.val) (.shrReg x y) ∧
    ∃ t, exec (.shrReg x y) s = .next t ∧ ResultAndFlag s t x ((s.reg y).toNat / 2) ((s.reg y).toNat % 2)

/-- R116: SUBN, VY - VX, with VF 0 exactly on a borrow. -/
def Obligations.SubnRegBorrows : Prop :=
  ∀ (x y : Reg) (s : State),
    IsWordOf (0x8007 + 0x100 * x.val + 0x10 * y.val) (.subnReg x y) ∧
    ∃ t, exec (.subnReg x y) s = .next t ∧
      ResultAndFlag s t x (((s.reg y).toNat + 256 - (s.reg x).toNat) % 256)
        (if (s.reg y).toNat < (s.reg x).toNat then 0 else 1)

/-- R117: SHL shifts VY into VX, and bit 7 of VY goes to VF. -/
def Obligations.ShlRegShiftsVy : Prop :=
  ∀ (x y : Reg) (s : State),
    IsWordOf (0x800E + 0x100 * x.val + 0x10 * y.val) (.shlReg x y) ∧
    ∃ t, exec (.shlReg x y) s = .next t ∧
      ResultAndFlag s t x ((s.reg y).toNat * 2 % 256) ((s.reg y).toNat / 128)

/-- R118: RND is the cycle's `rnd` AND NN, for every `rnd`. -/
def Obligations.RndByteMasksRnd : Prop :=
  ∀ (x : Reg) (nn : Byte) (s : State),
    IsWordOf (0xC000 + 0x100 * x.val + nn.toNat) (.rndByte x nn) ∧
    ∃ t, exec (.rndByte x nn) s = .next t ∧ OnlyResult s t x (s.rnd.toNat &&& nn.toNat)

/-! ## Index register and memory -/

/-- R119: LD I, NNN. -/
def Obligations.LdISetsI : Prop :=
  ∀ (nnn : BitVec 12) (s : State),
    IsWordOf (0xA000 + nnn.toNat) (.ldI nnn) ∧
    exec (.ldI nnn) s = .next { s with i := BitVec.ofNat 16 nnn.toNat }

/-- R120: ADD I, VX, modulo 2^16 and with no flag. -/
def Obligations.AddIWraps : Prop :=
  ∀ (x : Reg) (s : State),
    IsWordOf (0xF01E + 0x100 * x.val) (.addI x) ∧
    exec (.addI x) s = .next { s with i := BitVec.ofNat 16 ((s.i.toNat + (s.reg x).toNat) % 0x10000) }

/-- R121: LD F points I at the glyph of the low nibble of VX. -/
def Obligations.LdFPointsAtGlyph : Prop :=
  ∀ (x : Reg) (s : State),
    IsWordOf (0xF029 + 0x100 * x.val) (.ldF x) ∧
    exec (.ldF x) s = .next { s with i := BitVec.ofNat 16 (5 * ((s.reg x).toNat % 16)) }

/-- R122: LD B stores three digits at I and changes no other byte, and faults outside the program area with nothing written. -/
def Obligations.LdBStoresDigits : Prop :=
  ∀ (x : Reg) (s : State),
    IsWordOf (0xF033 + 0x100 * x.val) (.ldB x) ∧
    (512 ≤ s.i.toNat → s.i.toNat + 3 ≤ 4096 →
      ∃ t, exec (.ldB x) s = .next t ∧
        (t.mem.read s.i.toNat).toNat = (s.reg x).toNat / 100 ∧
        (t.mem.read (s.i.toNat + 1)).toNat = (s.reg x).toNat / 10 % 10 ∧
        (t.mem.read (s.i.toNat + 2)).toNat = (s.reg x).toNat % 10 ∧
        (∀ b, b < s.i.toNat ∨ s.i.toNat + 3 ≤ b → t.mem.read b = s.mem.read b) ∧
        t = { s with mem := t.mem }) ∧
    (∀ a : Addr, s.pc = a + 2 → 4096 < s.i.toNat + 3 →
      exec (.ldB x) s = .next (HaltedAt s a .memoryOutOfBounds (some ⟨s.i, 3, .write⟩))) ∧
    (∀ a : Addr, s.pc = a + 2 → s.i.toNat < 512 →
      exec (.ldB x) s = .next (HaltedAt s a .writeProtect (some ⟨s.i, 3, .write⟩)))

/-- R123: LD [I], VX stores V0 to VX at I and advances I, changes no other byte, and faults outside the program area with nothing written. -/
def Obligations.StoreRegsStoresBlock : Prop :=
  ∀ (x : Reg) (s : State),
    IsWordOf (0xF055 + 0x100 * x.val) (.storeRegs x) ∧
    (512 ≤ s.i.toNat → s.i.toNat + (x.val + 1) ≤ 4096 →
      ∃ t, exec (.storeRegs x) s = .next t ∧
        (∀ k : Reg, k ≤ x → t.mem.read (s.i.toNat + k.val) = s.reg k) ∧
        (∀ b, b < s.i.toNat ∨ s.i.toNat + (x.val + 1) ≤ b → t.mem.read b = s.mem.read b) ∧
        t = { s with mem := t.mem, i := BitVec.ofNat 16 ((s.i.toNat + x.val + 1) % 0x10000) }) ∧
    (∀ a : Addr, s.pc = a + 2 → 4096 < s.i.toNat + (x.val + 1) →
      exec (.storeRegs x) s = .next (HaltedAt s a .memoryOutOfBounds (some ⟨s.i, x.val + 1, .write⟩))) ∧
    (∀ a : Addr, s.pc = a + 2 → s.i.toNat < 512 →
      exec (.storeRegs x) s = .next (HaltedAt s a .writeProtect (some ⟨s.i, x.val + 1, .write⟩)))

/-- R124: LD VX, [I] loads V0 to VX from I and advances I, and faults past the store with nothing loaded. -/
def Obligations.LoadRegsLoadsBlock : Prop :=
  ∀ (x : Reg) (s : State),
    IsWordOf (0xF065 + 0x100 * x.val) (.loadRegs x) ∧
    (s.i.toNat + (x.val + 1) ≤ 4096 →
      ∃ t, exec (.loadRegs x) s = .next t ∧
        (∀ k : Reg, k ≤ x → t.reg k = s.mem.read (s.i.toNat + k.val)) ∧
        (∀ k : Reg, x < k → t.reg k = s.reg k) ∧
        t = { s with v := t.v, i := BitVec.ofNat 16 ((s.i.toNat + x.val + 1) % 0x10000) }) ∧
    (∀ a : Addr, s.pc = a + 2 → 4096 < s.i.toNat + (x.val + 1) →
      exec (.loadRegs x) s = .next (HaltedAt s a .memoryOutOfBounds (some ⟨s.i, x.val + 1, .read⟩)))

/-- R124's round trip: a block load from the address of a block store, with I set back, gives the stored registers back, whatever else has changed. -/
def Obligations.StoreThenLoadGivesRegistersBack : Prop :=
  ∀ (x : Reg) (s : State), 512 ≤ s.i.toNat → s.i.toNat + (x.val + 1) ≤ 4096 →
    ∃ t, exec (.storeRegs x) s = .next t ∧
      ∀ u : State, u.mem = t.mem → u.i = s.i →
        ∃ w, exec (.loadRegs x) u = .next w ∧ ∀ k : Reg, k ≤ x → w.reg k = s.reg k

/-- R60: bytes that a block store wrote are what a fetch of them reads next, the byte at the lower address as the high half of the word (R44). -/
def Obligations.StoredBytesAreFetched : Prop :=
  ∀ (x j k : Reg) (s : State), 512 ≤ s.i.toNat → s.i.toNat + (x.val + 1) ≤ 4096 → k.val = j.val + 1 → k ≤ x →
    ∃ t, exec (.storeRegs x) s = .next t ∧
      memFetch t.mem (BitVec.ofNat 16 (s.i.toNat + j.val)) =
        .ok (BitVec.ofNat 16 ((s.reg j).toNat * 256 + (s.reg k).toNat))

/-! ## Framebuffer -/

/-- R125: CLS turns every pixel off and changes nothing else. -/
def Obligations.ClsClearsScreen : Prop :=
  IsWordOf 0x00E0 .cls ∧
  ∀ s : State, ∃ t, exec .cls s = .next t ∧ (∀ p, getPixel t.fb p = false) ∧ t = { s with fb := t.fb }

/-- R127, R128: DRW toggles the pixels of the sprite, wrapped at the edges, sets VF to the collision, and faults when the sprite ends past the store. -/
def Obligations.DrwTogglesWrappedSprite : Prop :=
  ∀ (x y : Reg) (n : BitVec 4) (s : State),
    IsWordOf (0xD000 + 0x100 * x.val + 0x10 * y.val + n.toNat) (.drw x y n) ∧
    (n = 0 ∨ s.i.toNat + n.toNat ≤ 4096 →
      ∃ t, exec (.drw x y n) s = .next t ∧ Drawn (CoversWrapped s x y n) s t) ∧
    (∀ a : Addr, s.pc = a + 2 → n ≠ 0 → 4096 < s.i.toNat + n.toNat →
      exec (.drw x y n) s = .next (HaltedAt s a .memoryOutOfBounds (some ⟨s.i, n.toNat, .read⟩)))

/-- R129: under the policy `clip` a draw toggles only the pixels on the screen, and only they collide; for a sprite that lies inside the screen both policies draw the same. -/
def Obligations.ClippedDrawTogglesVisibleSprite : Prop :=
  ∀ (x y : Reg) (n : BitVec 4) (s : State),
    (n = 0 ∨ s.i.toNat + n.toNat ≤ 4096 → Drawn (CoversClipped s x y n) s (drawSprite .clip x y n s)) ∧
    ((∀ r c, SpriteBit s n r c → (s.reg x).toNat + c < 64 ∧ (s.reg y).toNat + r < 32) →
      drawSprite .clip x y n s = drawSprite .wrap x y n s)

/-- The draw-collision property of 95_test_vectors.md W5: drawing a sprite twice at the same place restores the screen; on a clear screen the second draw of a sprite with a set bit reports a collision. -/
def Obligations.DrawTwiceRestoresScreen : Prop :=
  ∀ (x y : Reg) (n : BitVec 4) (s : State),
    x ≠ flagReg → y ≠ flagReg → (n = 0 ∨ s.i.toNat + n.toNat ≤ 4096) →
    ∃ t u, exec (.drw x y n) s = .next t ∧ exec (.drw x y n) t = .next u ∧
      (∀ p, getPixel u.fb p = getPixel s.fb p) ∧
      ((∀ p, getPixel s.fb p = false) → (∃ r c, SpriteBit s n r c) → t.reg flagReg = 0 ∧ u.reg flagReg = 1)

/-! ## Timers and key wait -/

/-- R130, R131, R132: the timer transfers. In a whole cycle DT is read before that cycle's ticks, and a timer is written before them. -/
def Obligations.TimerTransfers : Prop :=
  ∀ (x : Reg) (s : State),
    IsWordOf (0xF007 + 0x100 * x.val) (.ldVxDt x) ∧
    IsWordOf (0xF015 + 0x100 * x.val) (.ldDtVx x) ∧
    IsWordOf (0xF018 + 0x100 * x.val) (.ldStVx x) ∧
    (∃ t, exec (.ldVxDt x) s = .next t ∧ OnlyResult s t x s.dt.toNat) ∧
    exec (.ldDtVx x) s = .next { s with dt := s.reg x } ∧
    exec (.ldStVx x) s = .next { s with st := s.reg x } ∧
    (State.soundActive { s with st := s.reg x } = true ↔ s.reg x ≠ 0) ∧
    ∀ (ticks : Nat) (rnd : Byte), s.run = .running → s.pc.toNat + 2 ≤ 4096 →
      (decode (wordAtPc s) = .ok (.ldVxDt x) →
        ∃ t, cycle ticks rnd s = .next t ∧ t.reg x = s.dt ∧ t.dt.toNat = s.dt.toNat - ticks) ∧
      (decode (wordAtPc s) = .ok (.ldDtVx x) →
        ∃ t, cycle ticks rnd s = .next t ∧ t.dt.toNat = (s.reg x).toNat - ticks) ∧
      (decode (wordAtPc s) = .ok (.ldStVx x) →
        ∃ t, cycle ticks rnd s = .next t ∧ t.st.toNat = (s.reg x).toNat - ticks)

/-- The handler of LD VX, K only starts the wait (R133's pseudocode); the wait itself is stated of the waiting cycles below. -/
def Obligations.LdVxKStartsWait : Prop :=
  ∀ (x : Reg) (s : State),
    IsWordOf (0xF00A + 0x100 * x.val) (.ldVxK x) ∧ exec (.ldVxK x) s = .next { s with run := .awaitKey x }

/-- R86, R87: a waiting cycle that sees a newly pressed key puts the least one into VX and lets the core run, and executes nothing. -/
def Obligations.WaitEndsOnLeastNewKey : Prop :=
  ∀ (s s0 : State) (ticks : Nat) (rnd : Byte) (x k : Reg), NextCycle s ticks rnd s0 → s.run = .awaitKey x →
    s.keys[k] = true → s.keysPrev[k] = false → (∀ j : Reg, j < k → ¬(s.keys[j] = true ∧ s.keysPrev[j] = false)) →
    ∃ t, step s = .next t ∧ (t.reg x).toNat = k.val ∧ (∀ r, r ≠ x → t.reg r = s.reg r) ∧
      t = Finished { s0 with v := t.v, run := .running } ticks []

/-- R86: a waiting cycle with no newly pressed key changes only KeysPrev and the timers. -/
def Obligations.WaitGoesOnWithoutNewKey : Prop :=
  ∀ (s s0 : State) (ticks : Nat) (rnd : Byte) (x : Reg), NextCycle s ticks rnd s0 → s.run = .awaitKey x →
    NoNewKey s → step s = .next (Finished s0 ticks [])

/-- A wait lasts for any number of cycles in which the host presses no new key, and the timers fall by all their ticks (R87, R89, R133). -/
def Obligations.WaitLastsWhileNoKeyComes : Prop :=
  ∀ (l : List (Nat × Byte)) (s : State) (x : Reg), s.run = .awaitKey x → NoNewKey s →
    s.host = l.map (fun c => .cycle c.1 c.2) →
    ∃ t : State, Host.Core.run Sys2Proof.core l.length s = .next t ∧
      t.run = .awaitKey x ∧ t.pc = s.pc ∧ t.v = s.v ∧ t.i = s.i ∧ t.stack = s.stack ∧ t.mem = s.mem ∧ t.fb = s.fb ∧
      t.dt.toNat = s.dt.toNat - (l.map Prod.fst).sum ∧ t.st.toNat = s.st.toNat - (l.map Prod.fst).sum

/-! ## The cycle -/

/-- A step runs the decoded instruction: in Running, with the next transaction a Cycle and the word at PC inside the store and decoding to `i`, the step is `exec i` from PC + 2 with the cycle's `rnd`; a fatal error then ends the cycle (R84), else KeysPrev and the ticks follow (R88). -/
def Obligations.StepRunsDecodedInstruction : Prop :=
  ∀ (s s0 t : State) (ticks : Nat) (rnd : Byte) (i : Instr), NextCycle s ticks rnd s0 → s.run = .running →
    s.pc.toNat + 2 ≤ 4096 → decode (wordAtPc s) = .ok i →
    exec i { s0 with pc := s.pc + 2, rnd := rnd } = .next t →
    ((∃ f, t.run = .halted f) → step s = .next { t with reply := .events [] }) ∧
    ((¬∃ f, t.run = .halted f) → step s = .next (Finished t ticks []))

/-- R82: an unknown opcode is reported, and the cycle is otherwise a no-op with PC advanced. -/
def Obligations.UnknownOpcodeIsReportedNoOp : Prop :=
  ∀ (s s0 : State) (ticks : Nat) (rnd : Byte), NextCycle s ticks rnd s0 → s.run = .running →
    s.pc.toNat + 2 ≤ 4096 → (∃ e, decode (wordAtPc s) = .error e) →
    step s = .next (Finished { s0 with pc := s.pc + 2, rnd := rnd } ticks [.unknownOpcode s.pc (wordAtPc s)])

/-- R83: a fetch past the store halts the core and changes nothing else. -/
def Obligations.FetchPastStoreHalts : Prop :=
  ∀ (s s0 : State) (ticks : Nat) (rnd : Byte), NextCycle s ticks rnd s0 → s.run = .running →
    4096 < s.pc.toNat + 2 →
    step s = .next { HaltedAt s0 s.pc .memoryOutOfBounds (some ⟨s.pc, 2, .fetch⟩) with reply := .events [] }

/-- R84: a cycle whose instruction raises a fatal error keeps none of the handler's writes: PC is past the instruction, the record names it, KeysPrev and the timers stand. -/
def Obligations.FaultingInstructionTakesNoEffect : Prop :=
  ∀ (s s0 s' : State) (ticks : Nat) (rnd : Byte) (f : FaultRecord), NextCycle s ticks rnd s0 → s.run = .running →
    s.pc.toNat + 2 ≤ 4096 → step s = .next s' → s'.run = .halted f →
    f.instrAddr = s.pc ∧ f.Consistent ∧
    s' = { s0 with pc := s.pc + 2, rnd := rnd, run := .halted f, reply := .events [] }

/-- R90: in Unloaded and in Halted a Cycle changes no core state and emits no event. -/
def Obligations.IdleCycleChangesNothing : Prop :=
  ∀ (s s0 : State) (ticks : Nat) (rnd : Byte), NextCycle s ticks rnd s0 →
    (s.run = .unloaded ∨ ∃ f, s.run = .halted f) → step s = .next { s0 with reply := .events [] }

/-! ## The host's transactions -/

/-- The state after reset, the font bytes written out (R29, R36). That a byte past the store, at 0x1000 and above, reads 0 as well is the model's choice (log 7), not the spec's. -/
def Obligations.ResetStateIsAsTabled : Prop :=
  (∀ r, State.reset.reg r = 0) ∧ State.reset.i = 0 ∧ State.reset.pc = 0x200 ∧ State.reset.stack = [] ∧
  State.reset.dt = 0 ∧ State.reset.st = 0 ∧
  (∀ p, getPixel State.reset.fb p = false) ∧ (∀ k : Reg, State.reset.keys[k] = false) ∧
  (∀ k : Reg, State.reset.keysPrev[k] = false) ∧ State.reset.run = .unloaded ∧
  State.reset.mem.readBytes 0x000 40 =
    [0xF0, 0x90, 0x90, 0x90, 0xF0, 0x20, 0x60, 0x20, 0x20, 0x70, 0xF0, 0x10, 0xF0, 0x80, 0xF0, 0xF0, 0x10, 0xF0, 0x10, 0xF0] ++
    [0x90, 0x90, 0xF0, 0x10, 0x10, 0xF0, 0x80, 0xF0, 0x10, 0xF0, 0xF0, 0x80, 0xF0, 0x90, 0xF0, 0xF0, 0x10, 0x20, 0x40, 0x40] ∧
  State.reset.mem.readBytes 0x028 40 =
    [0xF0, 0x90, 0xF0, 0x90, 0xF0, 0xF0, 0x90, 0xF0, 0x10, 0xF0, 0xF0, 0x90, 0xF0, 0x90, 0x90, 0xE0, 0x90, 0xE0, 0x90, 0xE0] ++
    [0xF0, 0x80, 0x80, 0x80, 0xF0, 0xE0, 0x90, 0x90, 0x90, 0xE0, 0xF0, 0x80, 0xF0, 0x80, 0xF0, 0xF0, 0x80, 0xF0, 0x80, 0x80] ∧
  (∀ a, 0x050 ≤ a → State.reset.mem.read a = 0)

/-- R154: the Reset transaction, in any run state, leaves every piece of core state at its reset value. That the host's list and the count of free inputs stay is the model's choice (logs 1 and 2). -/
def Obligations.ResetRestoresEverything : Prop :=
  ∀ (s : State) (rest : List Transaction), s.host = .reset :: rest →
    ∃ t, step s = .next t ∧ (∀ r, t.reg r = 0) ∧ t.i = 0 ∧ t.pc = 0x200 ∧ t.stack = [] ∧ t.dt = 0 ∧ t.st = 0 ∧
      (∀ a, t.mem.read a = State.reset.mem.read a) ∧ (∀ p, getPixel t.fb p = false) ∧
      (∀ k : Reg, t.keys[k] = false) ∧ (∀ k : Reg, t.keysPrev[k] = false) ∧ t.run = .unloaded ∧
      t.host = rest ∧ t.draws = s.draws

/-- R155, R156: Load copies the bytes to ORIGIN, sets PC and starts the core unless it is halted; a load that is too large changes nothing. -/
def Obligations.LoadCopiesOrRefuses : Prop :=
  ∀ (s : State) (bytes : List Byte) (rest : List Transaction), s.host = .load bytes :: rest →
    (4096 - 512 < bytes.length → step s = .next { s with host := rest, reply := .loadTooLarge }) ∧
    (bytes.length ≤ 4096 - 512 →
      ∃ t, step s = .next t ∧
        (∀ k (h : k < bytes.length), t.mem.read (512 + k) = bytes[k]) ∧
        (∀ a, a < 512 ∨ 512 + bytes.length ≤ a → t.mem.read a = s.mem.read a) ∧
        ((∃ f, s.run = .halted f) → t.run = s.run) ∧ ((¬∃ f, s.run = .halted f) → t.run = .running) ∧
        t = { s with mem := t.mem, pc := 0x200, run := t.run, host := rest, reply := .loadOk })

/-- The other transactions of the host: SetKeys sets Keys and nothing else, a read changes no core state and answers what R40 says, with KeysPrev in the status (R33), and a destroyed block defines no further transaction, so the model stops there by name (R37, R40, R158; logs 1, 4, 9 and 16). -/
def Obligations.SetKeysReadsAndDestroy : Prop :=
  ∀ (s : State) (rest : List Transaction),
    (∀ k, s.host = .setKeys k :: rest → step s = .next { s with keys := k, host := rest, reply := .nothing }) ∧
    (s.host = .readFramebuffer :: rest → step s = .next { s with host := rest, reply := .framebuffer s.fb }) ∧
    (s.host = .readSoundActive :: rest →
      ∃ b, step s = .next { s with host := rest, reply := .soundActive b } ∧ (b = true ↔ s.st ≠ 0)) ∧
    (s.host = .readStatus :: rest → step s = .next { s with host := rest, reply := .status ⟨s.run, s.keysPrev⟩ }) ∧
    (s.host = .destroy :: rest → step s = .fault .destroyed)

/-! ## Whole-machine rules -/

/-- Only 2NNN and 00EE change the stack, only 00E0 and DXYN the framebuffer, only FX33 and FX55 memory (R22, R32, R26). -/
def Obligations.WhoWritesStackScreenMemory : Prop :=
  ∀ (i : Instr) (s t : State), exec i s = .next t →
    (t.stack ≠ s.stack → i = .ret ∨ ∃ nnn, i = .call nnn) ∧
    (t.fb ≠ s.fb → i = .cls ∨ ∃ x y n, i = .drw x y n) ∧
    ((∃ a, t.mem.read a ≠ s.mem.read a) → ∃ x, i = .ldB x ∨ i = .storeRegs x)

/-- I is written by ANNN, FX1E, FX29, FX55 and FX65 only, DT by FX15, ST by FX18; no instruction writes Keys, KeysPrev or the interface's fields (R20, R23, R24, R30, R31). -/
def Obligations.WhoWritesIndexTimersKeys : Prop :=
  ∀ (i : Instr) (s t : State), exec i s = .next t →
    (t.i ≠ s.i → (∃ nnn, i = .ldI nnn) ∨ ∃ x, i = .addI x ∨ i = .ldF x ∨ i = .storeRegs x ∨ i = .loadRegs x) ∧
    (t.dt ≠ s.dt → ∃ x, i = .ldDtVx x) ∧ (t.st ≠ s.st → ∃ x, i = .ldStVx x) ∧
    t.keys = s.keys ∧ t.keysPrev = s.keysPrev ∧
    t.rnd = s.rnd ∧ t.host = s.host ∧ t.draws = s.draws ∧ t.reply = s.reply

/-- R138: no instruction but RET, CALL, DRW, FX33, FX55 and FX65 raises a fatal error. -/
def Obligations.OnlySixInstructionsRaiseFaults : Prop :=
  ∀ (i : Instr) (s t : State) (f : FaultRecord), (¬∃ g, s.run = .halted g) → exec i s = .next t → t.run = .halted f →
    i = .ret ∨ (∃ nnn, i = .call nnn) ∨ (∃ x y n, i = .drw x y n) ∨ ∃ x, i = .ldB x ∨ i = .storeRegs x ∨ i = .loadRegs x

/-- `rnd` reaches no instruction but RND (R39): with another `rnd`, any other instruction does the same. -/
def Obligations.OnlyRndReadsRnd : Prop :=
  ∀ (i : Instr) (s t : State) (b : Byte), (∀ x nn, i ≠ .rndByte x nn) → exec i s = .next t →
    exec i { s with rnd := b } = .next { t with rnd := b }

/-- How a Cycle can change the run state (R34): Unloaded and Halted stay; a wait goes on or ends; a running core runs on, halts, or waits because its instruction was FX0A. -/
def Obligations.RunStateChangesOfACycle : Prop :=
  ∀ (s s0 s' : State) (ticks : Nat) (rnd : Byte), NextCycle s ticks rnd s0 → step s = .next s' →
    (s.run = .unloaded → s'.run = .unloaded) ∧
    (∀ f, s.run = .halted f → s'.run = .halted f) ∧
    (∀ x, s.run = .awaitKey x → s'.run = .awaitKey x ∨ s'.run = .running) ∧
    (s.run = .running → s'.run = .running ∨ (∃ f, s'.run = .halted f) ∨
      ∃ x, s'.run = .awaitKey x ∧ decode (wordAtPc s) = .ok (.ldVxK x))

/-- A halted core stays halted, with its fault record, through every transaction but Reset (R85, R143). -/
def Obligations.HaltedUntilReset : Prop :=
  ∀ (s s' : State) (f : FaultRecord), s.run = .halted f → step s = .next s' →
    s'.run = .halted f ∨ ∃ rest, s.host = .reset :: rest

/-- No step changes a byte below ORIGIN, but Reset, which restores it: a program cannot change the font (R50, R160). -/
def Obligations.BytesBelowOriginAreProtected : Prop :=
  ∀ s s' : State, step s = .next s' → ∀ a, a < 512 →
    s'.mem.read a = s.mem.read a ∨ ((∃ rest, s.host = .reset :: rest) ∧ s'.mem.read a = State.reset.mem.read a)

/-! ## Invariants -/

/-- Every step keeps the form of the stored data: memory and framebuffer canonical and inside their bounds, the bytes below ORIGIN as Reset leaves them, at most 16 stack entries, a consistent fault record. The canonical forms are the model's choice (log 7). -/
def Obligations.EveryStepKeepsGood : Prop :=
  ∀ s s' : State, s.Good → step s = .next s' → s'.Good

/-- Every step keeps PC and the return addresses so low that no PC sum is ever reduced (R17). The bounds 0x10FE and 4096 are the model's choice (log 15): the spec gives the first for BNNN alone (R97). -/
def Obligations.EveryStepKeepsPcBounded : Prop :=
  ∀ s s' : State, PcBounded s → step s = .next s' → PcBounded s'

/-- Both invariants, and an even PC, hold after reset. The canonical forms in `Good` (log 7) and the bounds in `PcBounded` (log 15) are the model's choice. -/
def Obligations.InvariantsHoldAtReset : Prop :=
  State.reset.Good ∧ PcBounded State.reset ∧ PcEven State.reset

/-- PC stays even as long as no instruction's own target is odd (R19). -/
def Obligations.EvenTargetsKeepPcEven : Prop :=
  ∀ s s' : State, PcEven s →
    (s.run = .running → ∀ i, decode (wordAtPc s) = .ok i → TargetEven s i) →
    step s = .next s' → PcEven s'

/-- Equal contents are equal data: a canonical memory, or framebuffer, is determined by what it reads as (the model's representation, log 7). -/
def Obligations.CanonicalFormsAreUnique : Prop :=
  (∀ m m' : Memory, m.wf → m'.wf → (∀ a, m.read a = m'.read a) → m = m') ∧
  (∀ g g' : Framebuffer, Framebuffer.wf g → Framebuffer.wf g' → (∀ p, getPixel g p = getPixel g' p) → g = g')
end

