-- ==== Sys2Proof/Laws/Decode.lean ====
section
/-! SUPPORT. The fields of a word that the encoder builds, and a word rebuilt from its fields; bytes of a word. -/

namespace Sys2Proof

theorem opField_lt (w : InstrWord) : opField w < 16 := by
  have := w.isLt
  unfold opField
  omega

/-! ## Fields of an encoded word -/

theorem wordNNN_toNat {op : Nat} (h : op < 16) (nnn : BitVec 12) :
    (wordNNN op nnn).toNat = op * 0x1000 + nnn.toNat := by
  have := nnn.isLt
  rw [wordNNN, BitVec.toNat_ofNat, Nat.mod_eq_of_lt (by omega)]

theorem wordXNN_toNat {op : Nat} (h : op < 16) (x : Reg) (nn : Byte) :
    (wordXNN op x nn).toNat = op * 0x1000 + x.val * 0x100 + nn.toNat := by
  have := nn.isLt
  have := x.isLt
  rw [wordXNN, BitVec.toNat_ofNat, Nat.mod_eq_of_lt (by omega)]

theorem wordXYN_toNat {op : Nat} (h : op < 16) (x y : Reg) (n : BitVec 4) :
    (wordXYN op x y n).toNat = op * 0x1000 + x.val * 0x100 + y.val * 0x10 + n.toNat := by
  have := n.isLt
  have := x.isLt
  have := y.isLt
  rw [wordXYN, BitVec.toNat_ofNat, Nat.mod_eq_of_lt (by omega)]

theorem opField_wordNNN {op : Nat} (h : op < 16) (nnn : BitVec 12) : opField (wordNNN op nnn) = op := by
  have := nnn.isLt
  rw [opField, wordNNN_toNat h]; omega

theorem nnnField_wordNNN {op : Nat} (h : op < 16) (nnn : BitVec 12) : nnnField (wordNNN op nnn) = nnn := by
  have := nnn.isLt
  apply BitVec.eq_of_toNat_eq
  rw [nnnField, BitVec.toNat_ofNat, wordNNN_toNat h]; omega

theorem opField_wordXNN {op : Nat} (h : op < 16) (x : Reg) (nn : Byte) : opField (wordXNN op x nn) = op := by
  have := nn.isLt
  have := x.isLt
  rw [opField, wordXNN_toNat h]; omega

theorem xField_wordXNN {op : Nat} (h : op < 16) (x : Reg) (nn : Byte) : xField (wordXNN op x nn) = x := by
  have := nn.isLt
  have := x.isLt
  apply Fin.ext
  rw [xField, Fin.val_ofNat, wordXNN_toNat h]; omega

theorem nnField_wordXNN {op : Nat} (h : op < 16) (x : Reg) (nn : Byte) : nnField (wordXNN op x nn) = nn := by
  have := nn.isLt
  apply BitVec.eq_of_toNat_eq
  rw [nnField, BitVec.toNat_ofNat, wordXNN_toNat h]; omega

theorem opField_wordXYN {op : Nat} (h : op < 16) (x y : Reg) (n : BitVec 4) :
    opField (wordXYN op x y n) = op := by
  have := n.isLt
  have := x.isLt
  have := y.isLt
  rw [opField, wordXYN_toNat h]; omega

theorem xField_wordXYN {op : Nat} (h : op < 16) (x y : Reg) (n : BitVec 4) :
    xField (wordXYN op x y n) = x := by
  have := n.isLt
  have := x.isLt
  have := y.isLt
  apply Fin.ext
  rw [xField, Fin.val_ofNat, wordXYN_toNat h]; omega

theorem yField_wordXYN {op : Nat} (h : op < 16) (x y : Reg) (n : BitVec 4) :
    yField (wordXYN op x y n) = y := by
  have := n.isLt
  have := y.isLt
  apply Fin.ext
  rw [yField, Fin.val_ofNat, wordXYN_toNat h]; omega

theorem nField_wordXYN {op : Nat} (h : op < 16) (x y : Reg) (n : BitVec 4) :
    nField (wordXYN op x y n) = n := by
  have := n.isLt
  apply BitVec.eq_of_toNat_eq
  rw [nField, BitVec.toNat_ofNat, wordXYN_toNat h]; omega

/-! ## A word rebuilt from its fields -/

theorem wordNNN_fields (w : InstrWord) : wordNNN (opField w) (nnnField w) = w := by
  have := w.isLt
  apply BitVec.eq_of_toNat_eq
  rw [wordNNN_toNat (opField_lt w), opField, nnnField, BitVec.toNat_ofNat]; omega

theorem wordXNN_fields (w : InstrWord) : wordXNN (opField w) (xField w) (nnField w) = w := by
  have := w.isLt
  apply BitVec.eq_of_toNat_eq
  rw [wordXNN_toNat (opField_lt w), opField, xField, nnField, BitVec.toNat_ofNat, Fin.val_ofNat]; omega

theorem wordXYN_fields (w : InstrWord) : wordXYN (opField w) (xField w) (yField w) (nField w) = w := by
  have := w.isLt
  apply BitVec.eq_of_toNat_eq
  rw [wordXYN_toNat (opField_lt w), opField, xField, yField, nField, BitVec.toNat_ofNat, Fin.val_ofNat,
    Fin.val_ofNat]
  omega

/-! ## Bytes -/

theorem wordOfBytes_toNat (hi lo : Byte) : (wordOfBytes hi lo).toNat = hi.toNat * 256 + lo.toNat := by
  have := lo.isLt
  rw [wordOfBytes, BitVec.toNat_append, ← Nat.shiftLeft_add_eq_or_of_lt (by omega), Nat.shiftLeft_eq]

@[simp] theorem wordOfBytes_hi_lo (w : InstrWord) : wordOfBytes (hiByte w) (loByte w) = w := by
  have := w.isLt
  apply BitVec.eq_of_toNat_eq
  rw [wordOfBytes_toNat, hiByte, loByte, BitVec.extractLsb'_toNat, BitVec.extractLsb'_toNat]
  simp only [Nat.shiftRight_eq_div_pow]
  omega

@[simp] theorem hiByte_wordOfBytes (hi lo : Byte) : hiByte (wordOfBytes hi lo) = hi := by
  have := hi.isLt
  have := lo.isLt
  apply BitVec.eq_of_toNat_eq
  rw [hiByte, BitVec.extractLsb'_toNat, wordOfBytes_toNat]
  simp only [Nat.shiftRight_eq_div_pow]
  omega

@[simp] theorem loByte_wordOfBytes (hi lo : Byte) : loByte (wordOfBytes hi lo) = lo := by
  have := hi.isLt
  have := lo.isLt
  apply BitVec.eq_of_toNat_eq
  rw [loByte, BitVec.extractLsb'_toNat, wordOfBytes_toNat]
  simp only [Nat.shiftRight_eq_div_pow]
  omega

end Sys2Proof
end

