-- ==== Sys2Proof/Laws/State.lean ====
section
/-! SUPPORT. One lemma per field per update of State, so that no later proof unfolds a record update. -/

namespace Sys2Proof.Machine

variable (s : State)

@[simp] theorem State.setV_v (a) : (s.setV a).v = a := rfl
@[simp] theorem State.setV_i (a) : (s.setV a).i = s.i := rfl
@[simp] theorem State.setV_pc (a) : (s.setV a).pc = s.pc := rfl
@[simp] theorem State.setV_stack (a) : (s.setV a).stack = s.stack := rfl
@[simp] theorem State.setV_dt (a) : (s.setV a).dt = s.dt := rfl
@[simp] theorem State.setV_st (a) : (s.setV a).st = s.st := rfl
@[simp] theorem State.setV_mem (a) : (s.setV a).mem = s.mem := rfl
@[simp] theorem State.setV_fb (a) : (s.setV a).fb = s.fb := rfl
@[simp] theorem State.setV_keys (a) : (s.setV a).keys = s.keys := rfl
@[simp] theorem State.setV_keysPrev (a) : (s.setV a).keysPrev = s.keysPrev := rfl
@[simp] theorem State.setV_run (a) : (s.setV a).run = s.run := rfl
@[simp] theorem State.setV_rnd (a) : (s.setV a).rnd = s.rnd := rfl
@[simp] theorem State.setV_host (a) : (s.setV a).host = s.host := rfl
@[simp] theorem State.setV_draws (a) : (s.setV a).draws = s.draws := rfl
@[simp] theorem State.setV_reply (a) : (s.setV a).reply = s.reply := rfl

@[simp] theorem State.setI_v (a) : (s.setI a).v = s.v := rfl
@[simp] theorem State.setI_i (a) : (s.setI a).i = a := rfl
@[simp] theorem State.setI_pc (a) : (s.setI a).pc = s.pc := rfl
@[simp] theorem State.setI_stack (a) : (s.setI a).stack = s.stack := rfl
@[simp] theorem State.setI_dt (a) : (s.setI a).dt = s.dt := rfl
@[simp] theorem State.setI_st (a) : (s.setI a).st = s.st := rfl
@[simp] theorem State.setI_mem (a) : (s.setI a).mem = s.mem := rfl
@[simp] theorem State.setI_fb (a) : (s.setI a).fb = s.fb := rfl
@[simp] theorem State.setI_keys (a) : (s.setI a).keys = s.keys := rfl
@[simp] theorem State.setI_keysPrev (a) : (s.setI a).keysPrev = s.keysPrev := rfl
@[simp] theorem State.setI_run (a) : (s.setI a).run = s.run := rfl
@[simp] theorem State.setI_rnd (a) : (s.setI a).rnd = s.rnd := rfl
@[simp] theorem State.setI_host (a) : (s.setI a).host = s.host := rfl
@[simp] theorem State.setI_draws (a) : (s.setI a).draws = s.draws := rfl
@[simp] theorem State.setI_reply (a) : (s.setI a).reply = s.reply := rfl

@[simp] theorem State.setPc_v (a) : (s.setPc a).v = s.v := rfl
@[simp] theorem State.setPc_i (a) : (s.setPc a).i = s.i := rfl
@[simp] theorem State.setPc_pc (a) : (s.setPc a).pc = a := rfl
@[simp] theorem State.setPc_stack (a) : (s.setPc a).stack = s.stack := rfl
@[simp] theorem State.setPc_dt (a) : (s.setPc a).dt = s.dt := rfl
@[simp] theorem State.setPc_st (a) : (s.setPc a).st = s.st := rfl
@[simp] theorem State.setPc_mem (a) : (s.setPc a).mem = s.mem := rfl
@[simp] theorem State.setPc_fb (a) : (s.setPc a).fb = s.fb := rfl
@[simp] theorem State.setPc_keys (a) : (s.setPc a).keys = s.keys := rfl
@[simp] theorem State.setPc_keysPrev (a) : (s.setPc a).keysPrev = s.keysPrev := rfl
@[simp] theorem State.setPc_run (a) : (s.setPc a).run = s.run := rfl
@[simp] theorem State.setPc_rnd (a) : (s.setPc a).rnd = s.rnd := rfl
@[simp] theorem State.setPc_host (a) : (s.setPc a).host = s.host := rfl
@[simp] theorem State.setPc_draws (a) : (s.setPc a).draws = s.draws := rfl
@[simp] theorem State.setPc_reply (a) : (s.setPc a).reply = s.reply := rfl

@[simp] theorem State.setStack_v (a) : (s.setStack a).v = s.v := rfl
@[simp] theorem State.setStack_i (a) : (s.setStack a).i = s.i := rfl
@[simp] theorem State.setStack_pc (a) : (s.setStack a).pc = s.pc := rfl
@[simp] theorem State.setStack_stack (a) : (s.setStack a).stack = a := rfl
@[simp] theorem State.setStack_dt (a) : (s.setStack a).dt = s.dt := rfl
@[simp] theorem State.setStack_st (a) : (s.setStack a).st = s.st := rfl
@[simp] theorem State.setStack_mem (a) : (s.setStack a).mem = s.mem := rfl
@[simp] theorem State.setStack_fb (a) : (s.setStack a).fb = s.fb := rfl
@[simp] theorem State.setStack_keys (a) : (s.setStack a).keys = s.keys := rfl
@[simp] theorem State.setStack_keysPrev (a) : (s.setStack a).keysPrev = s.keysPrev := rfl
@[simp] theorem State.setStack_run (a) : (s.setStack a).run = s.run := rfl
@[simp] theorem State.setStack_rnd (a) : (s.setStack a).rnd = s.rnd := rfl
@[simp] theorem State.setStack_host (a) : (s.setStack a).host = s.host := rfl
@[simp] theorem State.setStack_draws (a) : (s.setStack a).draws = s.draws := rfl
@[simp] theorem State.setStack_reply (a) : (s.setStack a).reply = s.reply := rfl

@[simp] theorem State.setDt_v (a) : (s.setDt a).v = s.v := rfl
@[simp] theorem State.setDt_i (a) : (s.setDt a).i = s.i := rfl
@[simp] theorem State.setDt_pc (a) : (s.setDt a).pc = s.pc := rfl
@[simp] theorem State.setDt_stack (a) : (s.setDt a).stack = s.stack := rfl
@[simp] theorem State.setDt_dt (a) : (s.setDt a).dt = a := rfl
@[simp] theorem State.setDt_st (a) : (s.setDt a).st = s.st := rfl
@[simp] theorem State.setDt_mem (a) : (s.setDt a).mem = s.mem := rfl
@[simp] theorem State.setDt_fb (a) : (s.setDt a).fb = s.fb := rfl
@[simp] theorem State.setDt_keys (a) : (s.setDt a).keys = s.keys := rfl
@[simp] theorem State.setDt_keysPrev (a) : (s.setDt a).keysPrev = s.keysPrev := rfl
@[simp] theorem State.setDt_run (a) : (s.setDt a).run = s.run := rfl
@[simp] theorem State.setDt_rnd (a) : (s.setDt a).rnd = s.rnd := rfl
@[simp] theorem State.setDt_host (a) : (s.setDt a).host = s.host := rfl
@[simp] theorem State.setDt_draws (a) : (s.setDt a).draws = s.draws := rfl
@[simp] theorem State.setDt_reply (a) : (s.setDt a).reply = s.reply := rfl

@[simp] theorem State.setSt_v (a) : (s.setSt a).v = s.v := rfl
@[simp] theorem State.setSt_i (a) : (s.setSt a).i = s.i := rfl
@[simp] theorem State.setSt_pc (a) : (s.setSt a).pc = s.pc := rfl
@[simp] theorem State.setSt_stack (a) : (s.setSt a).stack = s.stack := rfl
@[simp] theorem State.setSt_dt (a) : (s.setSt a).dt = s.dt := rfl
@[simp] theorem State.setSt_st (a) : (s.setSt a).st = a := rfl
@[simp] theorem State.setSt_mem (a) : (s.setSt a).mem = s.mem := rfl
@[simp] theorem State.setSt_fb (a) : (s.setSt a).fb = s.fb := rfl
@[simp] theorem State.setSt_keys (a) : (s.setSt a).keys = s.keys := rfl
@[simp] theorem State.setSt_keysPrev (a) : (s.setSt a).keysPrev = s.keysPrev := rfl
@[simp] theorem State.setSt_run (a) : (s.setSt a).run = s.run := rfl
@[simp] theorem State.setSt_rnd (a) : (s.setSt a).rnd = s.rnd := rfl
@[simp] theorem State.setSt_host (a) : (s.setSt a).host = s.host := rfl
@[simp] theorem State.setSt_draws (a) : (s.setSt a).draws = s.draws := rfl
@[simp] theorem State.setSt_reply (a) : (s.setSt a).reply = s.reply := rfl

@[simp] theorem State.setMem_v (a) : (s.setMem a).v = s.v := rfl
@[simp] theorem State.setMem_i (a) : (s.setMem a).i = s.i := rfl
@[simp] theorem State.setMem_pc (a) : (s.setMem a).pc = s.pc := rfl
@[simp] theorem State.setMem_stack (a) : (s.setMem a).stack = s.stack := rfl
@[simp] theorem State.setMem_dt (a) : (s.setMem a).dt = s.dt := rfl
@[simp] theorem State.setMem_st (a) : (s.setMem a).st = s.st := rfl
@[simp] theorem State.setMem_mem (a) : (s.setMem a).mem = a := rfl
@[simp] theorem State.setMem_fb (a) : (s.setMem a).fb = s.fb := rfl
@[simp] theorem State.setMem_keys (a) : (s.setMem a).keys = s.keys := rfl
@[simp] theorem State.setMem_keysPrev (a) : (s.setMem a).keysPrev = s.keysPrev := rfl
@[simp] theorem State.setMem_run (a) : (s.setMem a).run = s.run := rfl
@[simp] theorem State.setMem_rnd (a) : (s.setMem a).rnd = s.rnd := rfl
@[simp] theorem State.setMem_host (a) : (s.setMem a).host = s.host := rfl
@[simp] theorem State.setMem_draws (a) : (s.setMem a).draws = s.draws := rfl
@[simp] theorem State.setMem_reply (a) : (s.setMem a).reply = s.reply := rfl

@[simp] theorem State.setFb_v (a) : (s.setFb a).v = s.v := rfl
@[simp] theorem State.setFb_i (a) : (s.setFb a).i = s.i := rfl
@[simp] theorem State.setFb_pc (a) : (s.setFb a).pc = s.pc := rfl
@[simp] theorem State.setFb_stack (a) : (s.setFb a).stack = s.stack := rfl
@[simp] theorem State.setFb_dt (a) : (s.setFb a).dt = s.dt := rfl
@[simp] theorem State.setFb_st (a) : (s.setFb a).st = s.st := rfl
@[simp] theorem State.setFb_mem (a) : (s.setFb a).mem = s.mem := rfl
@[simp] theorem State.setFb_fb (a) : (s.setFb a).fb = a := rfl
@[simp] theorem State.setFb_keys (a) : (s.setFb a).keys = s.keys := rfl
@[simp] theorem State.setFb_keysPrev (a) : (s.setFb a).keysPrev = s.keysPrev := rfl
@[simp] theorem State.setFb_run (a) : (s.setFb a).run = s.run := rfl
@[simp] theorem State.setFb_rnd (a) : (s.setFb a).rnd = s.rnd := rfl
@[simp] theorem State.setFb_host (a) : (s.setFb a).host = s.host := rfl
@[simp] theorem State.setFb_draws (a) : (s.setFb a).draws = s.draws := rfl
@[simp] theorem State.setFb_reply (a) : (s.setFb a).reply = s.reply := rfl

@[simp] theorem State.setKeys_v (a) : (s.setKeys a).v = s.v := rfl
@[simp] theorem State.setKeys_i (a) : (s.setKeys a).i = s.i := rfl
@[simp] theorem State.setKeys_pc (a) : (s.setKeys a).pc = s.pc := rfl
@[simp] theorem State.setKeys_stack (a) : (s.setKeys a).stack = s.stack := rfl
@[simp] theorem State.setKeys_dt (a) : (s.setKeys a).dt = s.dt := rfl
@[simp] theorem State.setKeys_st (a) : (s.setKeys a).st = s.st := rfl
@[simp] theorem State.setKeys_mem (a) : (s.setKeys a).mem = s.mem := rfl
@[simp] theorem State.setKeys_fb (a) : (s.setKeys a).fb = s.fb := rfl
@[simp] theorem State.setKeys_keys (a) : (s.setKeys a).keys = a := rfl
@[simp] theorem State.setKeys_keysPrev (a) : (s.setKeys a).keysPrev = s.keysPrev := rfl
@[simp] theorem State.setKeys_run (a) : (s.setKeys a).run = s.run := rfl
@[simp] theorem State.setKeys_rnd (a) : (s.setKeys a).rnd = s.rnd := rfl
@[simp] theorem State.setKeys_host (a) : (s.setKeys a).host = s.host := rfl
@[simp] theorem State.setKeys_draws (a) : (s.setKeys a).draws = s.draws := rfl
@[simp] theorem State.setKeys_reply (a) : (s.setKeys a).reply = s.reply := rfl

@[simp] theorem State.setKeysPrev_v (a) : (s.setKeysPrev a).v = s.v := rfl
@[simp] theorem State.setKeysPrev_i (a) : (s.setKeysPrev a).i = s.i := rfl
@[simp] theorem State.setKeysPrev_pc (a) : (s.setKeysPrev a).pc = s.pc := rfl
@[simp] theorem State.setKeysPrev_stack (a) : (s.setKeysPrev a).stack = s.stack := rfl
@[simp] theorem State.setKeysPrev_dt (a) : (s.setKeysPrev a).dt = s.dt := rfl
@[simp] theorem State.setKeysPrev_st (a) : (s.setKeysPrev a).st = s.st := rfl
@[simp] theorem State.setKeysPrev_mem (a) : (s.setKeysPrev a).mem = s.mem := rfl
@[simp] theorem State.setKeysPrev_fb (a) : (s.setKeysPrev a).fb = s.fb := rfl
@[simp] theorem State.setKeysPrev_keys (a) : (s.setKeysPrev a).keys = s.keys := rfl
@[simp] theorem State.setKeysPrev_keysPrev (a) : (s.setKeysPrev a).keysPrev = a := rfl
@[simp] theorem State.setKeysPrev_run (a) : (s.setKeysPrev a).run = s.run := rfl
@[simp] theorem State.setKeysPrev_rnd (a) : (s.setKeysPrev a).rnd = s.rnd := rfl
@[simp] theorem State.setKeysPrev_host (a) : (s.setKeysPrev a).host = s.host := rfl
@[simp] theorem State.setKeysPrev_draws (a) : (s.setKeysPrev a).draws = s.draws := rfl
@[simp] theorem State.setKeysPrev_reply (a) : (s.setKeysPrev a).reply = s.reply := rfl

@[simp] theorem State.setRun_v (a) : (s.setRun a).v = s.v := rfl
@[simp] theorem State.setRun_i (a) : (s.setRun a).i = s.i := rfl
@[simp] theorem State.setRun_pc (a) : (s.setRun a).pc = s.pc := rfl
@[simp] theorem State.setRun_stack (a) : (s.setRun a).stack = s.stack := rfl
@[simp] theorem State.setRun_dt (a) : (s.setRun a).dt = s.dt := rfl
@[simp] theorem State.setRun_st (a) : (s.setRun a).st = s.st := rfl
@[simp] theorem State.setRun_mem (a) : (s.setRun a).mem = s.mem := rfl
@[simp] theorem State.setRun_fb (a) : (s.setRun a).fb = s.fb := rfl
@[simp] theorem State.setRun_keys (a) : (s.setRun a).keys = s.keys := rfl
@[simp] theorem State.setRun_keysPrev (a) : (s.setRun a).keysPrev = s.keysPrev := rfl
@[simp] theorem State.setRun_run (a) : (s.setRun a).run = a := rfl
@[simp] theorem State.setRun_rnd (a) : (s.setRun a).rnd = s.rnd := rfl
@[simp] theorem State.setRun_host (a) : (s.setRun a).host = s.host := rfl
@[simp] theorem State.setRun_draws (a) : (s.setRun a).draws = s.draws := rfl
@[simp] theorem State.setRun_reply (a) : (s.setRun a).reply = s.reply := rfl

@[simp] theorem State.setRnd_v (a) : (s.setRnd a).v = s.v := rfl
@[simp] theorem State.setRnd_i (a) : (s.setRnd a).i = s.i := rfl
@[simp] theorem State.setRnd_pc (a) : (s.setRnd a).pc = s.pc := rfl
@[simp] theorem State.setRnd_stack (a) : (s.setRnd a).stack = s.stack := rfl
@[simp] theorem State.setRnd_dt (a) : (s.setRnd a).dt = s.dt := rfl
@[simp] theorem State.setRnd_st (a) : (s.setRnd a).st = s.st := rfl
@[simp] theorem State.setRnd_mem (a) : (s.setRnd a).mem = s.mem := rfl
@[simp] theorem State.setRnd_fb (a) : (s.setRnd a).fb = s.fb := rfl
@[simp] theorem State.setRnd_keys (a) : (s.setRnd a).keys = s.keys := rfl
@[simp] theorem State.setRnd_keysPrev (a) : (s.setRnd a).keysPrev = s.keysPrev := rfl
@[simp] theorem State.setRnd_run (a) : (s.setRnd a).run = s.run := rfl
@[simp] theorem State.setRnd_rnd (a) : (s.setRnd a).rnd = a := rfl
@[simp] theorem State.setRnd_host (a) : (s.setRnd a).host = s.host := rfl
@[simp] theorem State.setRnd_draws (a) : (s.setRnd a).draws = s.draws := rfl
@[simp] theorem State.setRnd_reply (a) : (s.setRnd a).reply = s.reply := rfl

@[simp] theorem State.setHost_v (a) : (s.setHost a).v = s.v := rfl
@[simp] theorem State.setHost_i (a) : (s.setHost a).i = s.i := rfl
@[simp] theorem State.setHost_pc (a) : (s.setHost a).pc = s.pc := rfl
@[simp] theorem State.setHost_stack (a) : (s.setHost a).stack = s.stack := rfl
@[simp] theorem State.setHost_dt (a) : (s.setHost a).dt = s.dt := rfl
@[simp] theorem State.setHost_st (a) : (s.setHost a).st = s.st := rfl
@[simp] theorem State.setHost_mem (a) : (s.setHost a).mem = s.mem := rfl
@[simp] theorem State.setHost_fb (a) : (s.setHost a).fb = s.fb := rfl
@[simp] theorem State.setHost_keys (a) : (s.setHost a).keys = s.keys := rfl
@[simp] theorem State.setHost_keysPrev (a) : (s.setHost a).keysPrev = s.keysPrev := rfl
@[simp] theorem State.setHost_run (a) : (s.setHost a).run = s.run := rfl
@[simp] theorem State.setHost_rnd (a) : (s.setHost a).rnd = s.rnd := rfl
@[simp] theorem State.setHost_host (a) : (s.setHost a).host = a := rfl
@[simp] theorem State.setHost_draws (a) : (s.setHost a).draws = s.draws := rfl
@[simp] theorem State.setHost_reply (a) : (s.setHost a).reply = s.reply := rfl

@[simp] theorem State.setDraws_v (a) : (s.setDraws a).v = s.v := rfl
@[simp] theorem State.setDraws_i (a) : (s.setDraws a).i = s.i := rfl
@[simp] theorem State.setDraws_pc (a) : (s.setDraws a).pc = s.pc := rfl
@[simp] theorem State.setDraws_stack (a) : (s.setDraws a).stack = s.stack := rfl
@[simp] theorem State.setDraws_dt (a) : (s.setDraws a).dt = s.dt := rfl
@[simp] theorem State.setDraws_st (a) : (s.setDraws a).st = s.st := rfl
@[simp] theorem State.setDraws_mem (a) : (s.setDraws a).mem = s.mem := rfl
@[simp] theorem State.setDraws_fb (a) : (s.setDraws a).fb = s.fb := rfl
@[simp] theorem State.setDraws_keys (a) : (s.setDraws a).keys = s.keys := rfl
@[simp] theorem State.setDraws_keysPrev (a) : (s.setDraws a).keysPrev = s.keysPrev := rfl
@[simp] theorem State.setDraws_run (a) : (s.setDraws a).run = s.run := rfl
@[simp] theorem State.setDraws_rnd (a) : (s.setDraws a).rnd = s.rnd := rfl
@[simp] theorem State.setDraws_host (a) : (s.setDraws a).host = s.host := rfl
@[simp] theorem State.setDraws_draws (a) : (s.setDraws a).draws = a := rfl
@[simp] theorem State.setDraws_reply (a) : (s.setDraws a).reply = s.reply := rfl

@[simp] theorem State.setReply_v (a) : (s.setReply a).v = s.v := rfl
@[simp] theorem State.setReply_i (a) : (s.setReply a).i = s.i := rfl
@[simp] theorem State.setReply_pc (a) : (s.setReply a).pc = s.pc := rfl
@[simp] theorem State.setReply_stack (a) : (s.setReply a).stack = s.stack := rfl
@[simp] theorem State.setReply_dt (a) : (s.setReply a).dt = s.dt := rfl
@[simp] theorem State.setReply_st (a) : (s.setReply a).st = s.st := rfl
@[simp] theorem State.setReply_mem (a) : (s.setReply a).mem = s.mem := rfl
@[simp] theorem State.setReply_fb (a) : (s.setReply a).fb = s.fb := rfl
@[simp] theorem State.setReply_keys (a) : (s.setReply a).keys = s.keys := rfl
@[simp] theorem State.setReply_keysPrev (a) : (s.setReply a).keysPrev = s.keysPrev := rfl
@[simp] theorem State.setReply_run (a) : (s.setReply a).run = s.run := rfl
@[simp] theorem State.setReply_rnd (a) : (s.setReply a).rnd = s.rnd := rfl
@[simp] theorem State.setReply_host (a) : (s.setReply a).host = s.host := rfl
@[simp] theorem State.setReply_draws (a) : (s.setReply a).draws = s.draws := rfl
@[simp] theorem State.setReply_reply (a) : (s.setReply a).reply = a := rfl

@[simp] theorem State.setReg_i (x b) : (s.setReg x b).i = s.i := rfl
@[simp] theorem State.setReg_pc (x b) : (s.setReg x b).pc = s.pc := rfl
@[simp] theorem State.setReg_stack (x b) : (s.setReg x b).stack = s.stack := rfl
@[simp] theorem State.setReg_dt (x b) : (s.setReg x b).dt = s.dt := rfl
@[simp] theorem State.setReg_st (x b) : (s.setReg x b).st = s.st := rfl
@[simp] theorem State.setReg_mem (x b) : (s.setReg x b).mem = s.mem := rfl
@[simp] theorem State.setReg_fb (x b) : (s.setReg x b).fb = s.fb := rfl
@[simp] theorem State.setReg_keys (x b) : (s.setReg x b).keys = s.keys := rfl
@[simp] theorem State.setReg_keysPrev (x b) : (s.setReg x b).keysPrev = s.keysPrev := rfl
@[simp] theorem State.setReg_run (x b) : (s.setReg x b).run = s.run := rfl
@[simp] theorem State.setReg_rnd (x b) : (s.setReg x b).rnd = s.rnd := rfl
@[simp] theorem State.setReg_host (x b) : (s.setReg x b).host = s.host := rfl
@[simp] theorem State.setReg_draws (x b) : (s.setReg x b).draws = s.draws := rfl
@[simp] theorem State.setReg_reply (x b) : (s.setReg x b).reply = s.reply := rfl

@[simp] theorem State.setFlag_i (b) : (s.setFlag b).i = s.i := rfl
@[simp] theorem State.setFlag_pc (b) : (s.setFlag b).pc = s.pc := rfl
@[simp] theorem State.setFlag_stack (b) : (s.setFlag b).stack = s.stack := rfl
@[simp] theorem State.setFlag_dt (b) : (s.setFlag b).dt = s.dt := rfl
@[simp] theorem State.setFlag_st (b) : (s.setFlag b).st = s.st := rfl
@[simp] theorem State.setFlag_mem (b) : (s.setFlag b).mem = s.mem := rfl
@[simp] theorem State.setFlag_fb (b) : (s.setFlag b).fb = s.fb := rfl
@[simp] theorem State.setFlag_keys (b) : (s.setFlag b).keys = s.keys := rfl
@[simp] theorem State.setFlag_keysPrev (b) : (s.setFlag b).keysPrev = s.keysPrev := rfl
@[simp] theorem State.setFlag_run (b) : (s.setFlag b).run = s.run := rfl
@[simp] theorem State.setFlag_rnd (b) : (s.setFlag b).rnd = s.rnd := rfl
@[simp] theorem State.setFlag_host (b) : (s.setFlag b).host = s.host := rfl
@[simp] theorem State.setFlag_draws (b) : (s.setFlag b).draws = s.draws := rfl
@[simp] theorem State.setFlag_reply (b) : (s.setFlag b).reply = s.reply := rfl

@[simp] theorem State.setRegFlag_i (x b c) : (s.setRegFlag x b c).i = s.i := rfl
@[simp] theorem State.setRegFlag_pc (x b c) : (s.setRegFlag x b c).pc = s.pc := rfl
@[simp] theorem State.setRegFlag_stack (x b c) : (s.setRegFlag x b c).stack = s.stack := rfl
@[simp] theorem State.setRegFlag_dt (x b c) : (s.setRegFlag x b c).dt = s.dt := rfl
@[simp] theorem State.setRegFlag_st (x b c) : (s.setRegFlag x b c).st = s.st := rfl
@[simp] theorem State.setRegFlag_mem (x b c) : (s.setRegFlag x b c).mem = s.mem := rfl
@[simp] theorem State.setRegFlag_fb (x b c) : (s.setRegFlag x b c).fb = s.fb := rfl
@[simp] theorem State.setRegFlag_keys (x b c) : (s.setRegFlag x b c).keys = s.keys := rfl
@[simp] theorem State.setRegFlag_keysPrev (x b c) : (s.setRegFlag x b c).keysPrev = s.keysPrev := rfl
@[simp] theorem State.setRegFlag_run (x b c) : (s.setRegFlag x b c).run = s.run := rfl
@[simp] theorem State.setRegFlag_rnd (x b c) : (s.setRegFlag x b c).rnd = s.rnd := rfl
@[simp] theorem State.setRegFlag_host (x b c) : (s.setRegFlag x b c).host = s.host := rfl
@[simp] theorem State.setRegFlag_draws (x b c) : (s.setRegFlag x b c).draws = s.draws := rfl
@[simp] theorem State.setRegFlag_reply (x b c) : (s.setRegFlag x b c).reply = s.reply := rfl

@[simp] theorem State.halt_v (a t) : (s.halt a t).v = s.v := rfl
@[simp] theorem State.halt_i (a t) : (s.halt a t).i = s.i := rfl
@[simp] theorem State.halt_pc (a t) : (s.halt a t).pc = s.pc := rfl
@[simp] theorem State.halt_stack (a t) : (s.halt a t).stack = s.stack := rfl
@[simp] theorem State.halt_dt (a t) : (s.halt a t).dt = s.dt := rfl
@[simp] theorem State.halt_st (a t) : (s.halt a t).st = s.st := rfl
@[simp] theorem State.halt_mem (a t) : (s.halt a t).mem = s.mem := rfl
@[simp] theorem State.halt_fb (a t) : (s.halt a t).fb = s.fb := rfl
@[simp] theorem State.halt_keys (a t) : (s.halt a t).keys = s.keys := rfl
@[simp] theorem State.halt_keysPrev (a t) : (s.halt a t).keysPrev = s.keysPrev := rfl
@[simp] theorem State.halt_rnd (a t) : (s.halt a t).rnd = s.rnd := rfl
@[simp] theorem State.halt_host (a t) : (s.halt a t).host = s.host := rfl
@[simp] theorem State.halt_draws (a t) : (s.halt a t).draws = s.draws := rfl
@[simp] theorem State.halt_reply (a t) : (s.halt a t).reply = s.reply := rfl

@[simp] theorem State.raise_v (t) : (s.raise t).v = s.v := rfl
@[simp] theorem State.raise_i (t) : (s.raise t).i = s.i := rfl
@[simp] theorem State.raise_pc (t) : (s.raise t).pc = s.pc := rfl
@[simp] theorem State.raise_stack (t) : (s.raise t).stack = s.stack := rfl
@[simp] theorem State.raise_dt (t) : (s.raise t).dt = s.dt := rfl
@[simp] theorem State.raise_st (t) : (s.raise t).st = s.st := rfl
@[simp] theorem State.raise_mem (t) : (s.raise t).mem = s.mem := rfl
@[simp] theorem State.raise_fb (t) : (s.raise t).fb = s.fb := rfl
@[simp] theorem State.raise_keys (t) : (s.raise t).keys = s.keys := rfl
@[simp] theorem State.raise_keysPrev (t) : (s.raise t).keysPrev = s.keysPrev := rfl
@[simp] theorem State.raise_rnd (t) : (s.raise t).rnd = s.rnd := rfl
@[simp] theorem State.raise_host (t) : (s.raise t).host = s.host := rfl
@[simp] theorem State.raise_draws (t) : (s.raise t).draws = s.draws := rfl
@[simp] theorem State.raise_reply (t) : (s.raise t).reply = s.reply := rfl

@[simp] theorem State.enter_v (b) : (s.enter b).v = s.v := rfl
@[simp] theorem State.enter_i (b) : (s.enter b).i = s.i := rfl
@[simp] theorem State.enter_stack (b) : (s.enter b).stack = s.stack := rfl
@[simp] theorem State.enter_dt (b) : (s.enter b).dt = s.dt := rfl
@[simp] theorem State.enter_st (b) : (s.enter b).st = s.st := rfl
@[simp] theorem State.enter_mem (b) : (s.enter b).mem = s.mem := rfl
@[simp] theorem State.enter_fb (b) : (s.enter b).fb = s.fb := rfl
@[simp] theorem State.enter_keys (b) : (s.enter b).keys = s.keys := rfl
@[simp] theorem State.enter_keysPrev (b) : (s.enter b).keysPrev = s.keysPrev := rfl
@[simp] theorem State.enter_run (b) : (s.enter b).run = s.run := rfl
@[simp] theorem State.enter_host (b) : (s.enter b).host = s.host := rfl
@[simp] theorem State.enter_draws (b) : (s.enter b).draws = s.draws := rfl
@[simp] theorem State.enter_reply (b) : (s.enter b).reply = s.reply := rfl

@[simp] theorem State.halt_run (a t) : (s.halt a t).run = .halted ⟨t.reason, a, t.access⟩ := rfl
@[simp] theorem State.raise_run (t) : (s.raise t).run = .halted ⟨t.reason, s.pc - 2, t.access⟩ := rfl
@[simp] theorem State.enter_pc (b) : (s.enter b).pc = s.pc + 2 := rfl
@[simp] theorem State.enter_rnd (b) : (s.enter b).rnd = b := rfl

@[simp] theorem State.reg_setReg (x y b) : (s.setReg x b).reg y = if y = x then b else s.reg y := by
  simp only [State.reg, State.setReg, State.setV, Fin.getElem_fin, Vector.getElem_set, Fin.val_inj, eq_comm]

@[simp] theorem State.reg_setFlag (y b) : (s.setFlag b).reg y = if y = flagReg then b else s.reg y :=
  s.reg_setReg flagReg y b

@[simp] theorem State.reg_setRegFlag (x y b c) :
    (s.setRegFlag x b c).reg y = if y = flagReg then c else if y = x then b else s.reg y := by
  simp [State.setRegFlag]

@[simp] theorem State.reg_setI (a x) : (s.setI a).reg x = s.reg x := rfl
@[simp] theorem State.reg_setPc (a x) : (s.setPc a).reg x = s.reg x := rfl
@[simp] theorem State.reg_setStack (a x) : (s.setStack a).reg x = s.reg x := rfl
@[simp] theorem State.reg_setDt (a x) : (s.setDt a).reg x = s.reg x := rfl
@[simp] theorem State.reg_setSt (a x) : (s.setSt a).reg x = s.reg x := rfl
@[simp] theorem State.reg_setMem (a x) : (s.setMem a).reg x = s.reg x := rfl
@[simp] theorem State.reg_setFb (a x) : (s.setFb a).reg x = s.reg x := rfl
@[simp] theorem State.reg_setKeys (a x) : (s.setKeys a).reg x = s.reg x := rfl
@[simp] theorem State.reg_setKeysPrev (a x) : (s.setKeysPrev a).reg x = s.reg x := rfl
@[simp] theorem State.reg_setRun (a x) : (s.setRun a).reg x = s.reg x := rfl
@[simp] theorem State.reg_setRnd (a x) : (s.setRnd a).reg x = s.reg x := rfl
@[simp] theorem State.reg_setHost (a x) : (s.setHost a).reg x = s.reg x := rfl
@[simp] theorem State.reg_setDraws (a x) : (s.setDraws a).reg x = s.reg x := rfl
@[simp] theorem State.reg_setReply (a x) : (s.setReply a).reg x = s.reg x := rfl

@[simp] theorem finishCycle_keysPrev (t e) : (finishCycle t e s).keysPrev = s.keys := rfl
@[simp] theorem finishCycle_dt (t e) : (finishCycle t e s).dt = tickDown t s.dt := rfl
@[simp] theorem finishCycle_st (t e) : (finishCycle t e s).st = tickDown t s.st := rfl
@[simp] theorem finishCycle_reply (t e) : (finishCycle t e s).reply = .events e := rfl
@[simp] theorem finishCycle_v (t e) : (finishCycle t e s).v = s.v := rfl
@[simp] theorem finishCycle_i (t e) : (finishCycle t e s).i = s.i := rfl
@[simp] theorem finishCycle_pc (t e) : (finishCycle t e s).pc = s.pc := rfl
@[simp] theorem finishCycle_stack (t e) : (finishCycle t e s).stack = s.stack := rfl
@[simp] theorem finishCycle_mem (t e) : (finishCycle t e s).mem = s.mem := rfl
@[simp] theorem finishCycle_fb (t e) : (finishCycle t e s).fb = s.fb := rfl
@[simp] theorem finishCycle_keys (t e) : (finishCycle t e s).keys = s.keys := rfl
@[simp] theorem finishCycle_run (t e) : (finishCycle t e s).run = s.run := rfl
@[simp] theorem finishCycle_rnd (t e) : (finishCycle t e s).rnd = s.rnd := rfl
@[simp] theorem finishCycle_host (t e) : (finishCycle t e s).host = s.host := rfl
@[simp] theorem finishCycle_draws (t e) : (finishCycle t e s).draws = s.draws := rfl

end Sys2Proof.Machine
end

