-- ==== Sys2Proof/Laws/Framebuffer.lean ====
section
/-! SUPPORT. The laws of the framebuffer: a pixel after a write, the canonical form, and what a blit does. -/

namespace Sys2Proof.Machine

theorem pixelIndex_inj {p q : Pixel} (h : pixelIndex p = pixelIndex q) : p = q := by
  obtain ⟨⟨x, hx⟩, ⟨y, hy⟩⟩ := p
  obtain ⟨⟨x', hx'⟩, ⟨y', hy'⟩⟩ := q
  simp only [pixelIndex] at h
  obtain ⟨rfl, rfl⟩ : x = x' ∧ y = y' := by omega
  rfl

theorem Framebuffer.mem_insert {g : Framebuffer} {p q : Pixel} :
    q ∈ Framebuffer.insert p g ↔ q = p ∨ q ∈ g := by
  induction g with
  | nil => simp [Framebuffer.insert]
  | cons r g ih =>
    rw [Framebuffer.insert]
    split
    · simp
    · simp only [List.mem_cons, ih]; tauto

theorem getPixel_iff {g : Framebuffer} {p : Pixel} : getPixel g p = true ↔ p ∈ g := by
  simp [getPixel]

/-- Read after write: the new value at its own pixel, the old value elsewhere. -/
@[simp] theorem getPixel_setPixel (g : Framebuffer) (p q : Pixel) (b : Bool) :
    getPixel (setPixel g p b) q = if q = p then b else getPixel g q := by
  rw [Bool.eq_iff_iff]
  cases b <;> by_cases h : q = p <;>
    simp [setPixel, getPixel_iff, Framebuffer.mem_insert, h]

@[simp] theorem getPixel_clearScreen (p : Pixel) : getPixel clearScreen p = false := rfl

theorem Framebuffer.wf_insert {g : Framebuffer} {p : Pixel} (h : Framebuffer.wf g) (hp : p ∉ g) :
    Framebuffer.wf (Framebuffer.insert p g) := by
  induction g with
  | nil => simp [Framebuffer.insert, Framebuffer.wf]
  | cons r g ih =>
    have h' := List.pairwise_cons.1 h
    rw [Framebuffer.insert]
    split
    · next hlt =>
      refine List.pairwise_cons.2 ⟨fun q hq => ?_, h⟩
      rcases List.mem_cons.1 hq with rfl | hq
      · exact hlt
      · exact Nat.lt_trans hlt (h'.1 q hq)
    · next hge =>
      refine List.pairwise_cons.2 ⟨fun q hq => ?_, ih h'.2 fun hq => hp (by simp [hq])⟩
      rcases Framebuffer.mem_insert.1 hq with rfl | hq
      · have : pixelIndex r ≠ pixelIndex q := fun e => hp (by simp [pixelIndex_inj e])
        omega
      · exact h'.1 q hq

/-- Writing a pixel keeps the canonical form. -/
theorem Framebuffer.wf_setPixel {g : Framebuffer} (p : Pixel) (b : Bool) (h : Framebuffer.wf g) :
    Framebuffer.wf (setPixel g p b) := by
  have hf : Framebuffer.wf (g.filter fun q => q != p) := List.Pairwise.filter _ h
  unfold setPixel
  split
  · exact Framebuffer.wf_insert hf (by simp)
  · exact hf

theorem Framebuffer.wf_clearScreen : Framebuffer.wf clearScreen := List.Pairwise.nil

theorem Framebuffer.wf_blit (l : List Pixel) {g : Framebuffer} (h : Framebuffer.wf g) :
    Framebuffer.wf (blit l g).1 := by
  induction l generalizing g with
  | nil => exact h
  | cons p l ih => exact ih (Framebuffer.wf_setPixel p _ h)

/-- A blit over distinct pixels flips exactly those pixels, and reports whether one of them was on. -/
theorem blit_spec (l : List Pixel) (hl : l.Nodup) (g : Framebuffer) :
    (∀ q, getPixel (blit l g).1 q = (getPixel g q ^^ decide (q ∈ l))) ∧
    ((blit l g).2 = true ↔ ∃ p ∈ l, getPixel g p = true) := by
  induction l generalizing g with
  | nil => simp [blit]
  | cons p l ih =>
    have hp := List.nodup_cons.1 hl
    obtain ⟨h1, h2⟩ := ih hp.2 (setPixel g p (!getPixel g p))
    constructor
    · intro q
      rw [blit, h1 q, getPixel_setPixel]
      by_cases hq : q = p
      · subst hq; simp [hp.1]
      · simp [hq]
    · simp only [blit, Bool.or_eq_true, h2, List.mem_cons, exists_eq_or_imp, getPixel_setPixel]
      refine or_congr Iff.rfl (exists_congr fun r => and_congr_right fun hr => ?_)
      have : r ≠ p := fun e => hp.1 (e ▸ hr)
      simp [this]

end Sys2Proof.Machine
end

