-- ==== Sys2Proof/Laws/Memory.lean ====
section
/-! SUPPORT. The laws of the byte store: read after write, the canonical form and the protected bytes under every operation, and what a checked access can answer. -/

namespace Sys2Proof.Machine

@[simp] theorem hw_memSize : Config.hw.memSize = 4096 := rfl
@[simp] theorem hw_origin : Config.hw.origin = 512 := rfl
@[simp] theorem hw_fontBase : Config.hw.fontBase = 0 := rfl
@[simp] theorem hw_stackDepth : Config.hw.stackDepth = 16 := rfl
@[simp] theorem hw_drawEdge : Config.hw.drawEdge = .wrap := rfl
@[simp] theorem hw_bnnnMode : Config.hw.bnnnMode = .jump := rfl

/-! ## Reading one byte after writing one -/

@[simp] theorem Memory.read_nil (a : Nat) : Memory.read [] a = resetByte a := rfl

theorem Memory.read_of_not_listed {m : Memory} {a : Nat} (h : ∀ c ∈ m, c.1 ≠ a) : m.read a = resetByte a := by
  induction m with
  | nil => rfl
  | cons c m ih =>
    rw [Memory.read, if_neg (h c (by simp)), ih fun d hd => h d (by simp [hd])]

theorem Memory.mem_erase {m : Memory} {a : Nat} {c : Host.Cell} : c ∈ m.erase a ↔ c ∈ m ∧ c.1 ≠ a := by
  simp [Memory.erase]

theorem Memory.read_erase_same (m : Memory) (a : Nat) : (m.erase a).read a = resetByte a :=
  Memory.read_of_not_listed fun _ hc => (Memory.mem_erase.1 hc).2

theorem Memory.read_erase_other {m : Memory} {a b : Nat} (h : b ≠ a) : (m.erase a).read b = m.read b := by
  induction m with
  | nil => rfl
  | cons c m ih =>
    simp only [Memory.erase] at ih ⊢
    by_cases hc : c.1 = a
    · rw [List.filter_cons_of_neg (by simp [hc]), ih, Memory.read, if_neg (by omega)]
    · rw [List.filter_cons_of_pos (by simp [hc]), Memory.read, Memory.read, ih]

theorem Memory.read_insert {m : Memory} {a : Nat} (b : Byte) (h : ∀ c ∈ m, c.1 ≠ a) (x : Nat) :
    (Memory.insert a b m).read x = if x = a then b else m.read x := by
  induction m with
  | nil => simp [Memory.insert, Memory.read, eq_comm]
  | cons c m ih =>
    have hc := h c (by simp)
    rw [Memory.insert]
    split
    · rw [Memory.read]; simp [eq_comm]
    · rw [Memory.read, ih fun d hd => h d (by simp [hd]), Memory.read]
      by_cases hx : c.1 = x
      · simp [hx]; omega
      · simp [hx]

/-- Read after write: the byte written at its own address, the old byte elsewhere. -/
theorem Memory.read_write (m : Memory) (a : Nat) (b : Byte) (x : Nat) :
    (m.write a b).read x = if x = a then b else m.read x := by
  unfold Memory.write
  split
  · next hb =>
    split
    · next hx => subst hx; rw [Memory.read_erase_same, hb]
    · next hx => exact Memory.read_erase_other hx
  · rw [Memory.read_insert b fun c hc => (Memory.mem_erase.1 hc).2]
    split
    · rfl
    · next hx => exact Memory.read_erase_other hx

/-! ## Runs of bytes -/

@[simp] theorem Memory.length_readBytes (m : Memory) (n a : Nat) : (m.readBytes a n).length = n := by
  induction n generalizing a with
  | zero => rfl
  | succ n ih => simp [Memory.readBytes, ih]

theorem Memory.getElem_readBytes (m : Memory) (n a k : Nat) (h : k < (m.readBytes a n).length) :
    (m.readBytes a n)[k] = m.read (a + k) := by
  induction n generalizing a k with
  | zero => simp [Memory.readBytes] at h
  | succ n ih =>
    cases k with
    | zero => rfl
    | succ k =>
      simp only [Memory.readBytes, List.getElem_cons_succ]
      rw [ih]
      congr 1
      omega

/-- Read after a run of writes: the byte written inside the run, the old byte outside it. -/
theorem Memory.read_writeBytes (m : Memory) (a : Nat) (l : List Byte) (x : Nat) :
    (m.writeBytes a l).read x = if h : a ≤ x ∧ x < a + l.length then l[x - a]'(by omega) else m.read x := by
  induction l generalizing m a with
  | nil => simp [Memory.writeBytes]
  | cons b l ih =>
    rw [Memory.writeBytes, ih, Memory.read_write]
    simp only [List.length_cons]
    by_cases hx : x = a
    · subst hx; simp
    · by_cases h1 : a + 1 ≤ x ∧ x < a + 1 + l.length
      · have h2 : a ≤ x ∧ x < a + (l.length + 1) := by omega
        rw [dif_pos h1, dif_pos h2]
        obtain ⟨k, hk⟩ : ∃ k, x - a = k + 1 := ⟨x - a - 1, by omega⟩
        simp only [hk, List.getElem_cons_succ]
        congr 1
        omega
      · have h2 : ¬(a ≤ x ∧ x < a + (l.length + 1)) := by omega
        rw [dif_neg h1, dif_neg h2, if_neg hx]

/-- A byte outside a run of writes reads as before. -/
theorem Memory.read_writeBytes_outside (m : Memory) {a x : Nat} (l : List Byte)
    (h : x < a ∨ a + l.length ≤ x) : (m.writeBytes a l).read x = m.read x := by
  rw [Memory.read_writeBytes, dif_neg (by omega)]

/-- The `k`-th byte of a run of writes is the one written. -/
theorem Memory.read_writeBytes_inside (m : Memory) (a : Nat) (l : List Byte) {k : Nat} (h : k < l.length) :
    (m.writeBytes a l).read (a + k) = l[k] := by
  rw [Memory.read_writeBytes, dif_pos (by omega)]
  congr 1
  omega

/-! ## The canonical form and the protected bytes -/

theorem Memory.mem_insert {m : Memory} {a : Nat} {b : Byte} {c : Host.Cell} :
    c ∈ Memory.insert a b m ↔ c = (a, b) ∨ c ∈ m := by
  induction m with
  | nil => simp [Memory.insert]
  | cons d m ih =>
    rw [Memory.insert]
    split
    · simp
    · simp only [List.mem_cons, ih]; tauto

theorem Memory.wf_erase {m : Memory} (a : Nat) (h : m.wf) : (m.erase a).wf :=
  ⟨h.1.filter _, fun c hc => h.2 c (Memory.mem_erase.1 hc).1⟩

theorem Memory.pairwise_insert {m : Memory} {a : Nat} (b : Byte) (h : m.Pairwise fun c d => c.1 < d.1)
    (ha : ∀ c ∈ m, c.1 ≠ a) : (Memory.insert a b m).Pairwise fun c d => c.1 < d.1 := by
  induction m with
  | nil => simp [Memory.insert]
  | cons d m ih =>
    rw [List.pairwise_cons] at h
    have hd := ha d (by simp)
    rw [Memory.insert]
    split
    · next hlt =>
      refine List.pairwise_cons.2 ⟨fun c hc => ?_, List.pairwise_cons.2 h⟩
      rcases List.mem_cons.1 hc with rfl | hc
      · exact hlt
      · exact Nat.lt_trans hlt (h.1 c hc)
    · refine List.pairwise_cons.2 ⟨fun c hc => ?_, ih h.2 fun c hc => ha c (by simp [hc])⟩
      rcases Memory.mem_insert.1 hc with rfl | hc
      · show d.1 < a
        omega
      · exact h.1 c hc

/-- A write inside the store keeps the canonical form. -/
theorem Memory.wf_write {m : Memory} {a : Nat} (b : Byte) (h : m.wf) (ha : a < Config.hw.memSize) :
    (m.write a b).wf := by
  have he := Memory.wf_erase a h
  unfold Memory.write
  split
  · exact he
  · next hb =>
    refine ⟨Memory.pairwise_insert b he.1 fun c hc => (Memory.mem_erase.1 hc).2, fun c hc => ?_⟩
    rcases Memory.mem_insert.1 hc with rfl | hc
    · exact ⟨ha, hb⟩
    · exact he.2 c hc

/-- A run of writes inside the store keeps the canonical form. -/
theorem Memory.wf_writeBytes {m : Memory} {a : Nat} (l : List Byte) (h : m.wf)
    (ha : a + l.length ≤ Config.hw.memSize) : (m.writeBytes a l).wf := by
  induction l generalizing m a with
  | nil => exact h
  | cons b l ih =>
    rw [List.length_cons] at ha
    exact ih (Memory.wf_write b h (by omega)) (by omega)

theorem Memory.wf_nil : Memory.wf [] := by simp [Memory.wf]

theorem Memory.wf_reset : State.reset.mem.wf := Memory.wf_nil

/-- A run of writes at ORIGIN or above lists no protected byte. -/
theorem Memory.lowIntact_writeBytes {m : Memory} {a : Nat} (l : List Byte) (h : m.LowIntact)
    (ha : Config.hw.origin ≤ a) : (m.writeBytes a l).LowIntact := by
  induction l generalizing m a with
  | nil => exact h
  | cons b l ih =>
    refine ih (fun c hc => ?_) (by omega)
    unfold Memory.write at hc
    split at hc
    · exact h c (Memory.mem_erase.1 hc).1
    · rcases Memory.mem_insert.1 hc with rfl | hc
      · exact ha
      · exact h c (Memory.mem_erase.1 hc).1

/-! ## Checked accesses -/

/-- When no access fault arises. -/
theorem accessTrap_eq_none {addr : Addr} {n : Nat} {k : AccessKind} :
    accessTrap addr n k = none ↔
      addr.toNat + n ≤ Config.hw.memSize ∧ (k = .write → Config.hw.origin ≤ addr.toNat) := by
  unfold accessTrap
  by_cases h1 : Config.hw.memSize < addr.toNat + n
  · rw [if_pos h1]
    exact ⟨nofun, fun h => absurd h.1 (by omega)⟩
  · rw [if_neg h1]
    by_cases h2 : k = .write ∧ addr.toNat < Config.hw.origin
    · rw [if_pos h2]
      exact ⟨nofun, fun h => absurd (h.2 h2.1) (by omega)⟩
    · rw [if_neg h2]
      exact ⟨fun _ => ⟨by omega, fun hk => Nat.le_of_not_lt fun hlt => h2 ⟨hk, hlt⟩⟩, fun _ => rfl⟩

/-- What a checked access raises is a consistent fault, wherever it is recorded. -/
theorem accessTrap_consistent {addr : Addr} {n : Nat} {k : AccessKind} {t : Trap} (a : Addr)
    (h : accessTrap addr n k = some t) : FaultRecord.Consistent ⟨t.reason, a, t.access⟩ := by
  unfold accessTrap at h
  split at h
  · next h1 => cases h; exact h1
  · split at h
    · next h1 h2 => cases h; exact ⟨h2.1, h2.2, by simpa using h1⟩
    · cases h

/-- All that MemRead can answer. -/
theorem memRead_cases (m : Memory) (addr : Addr) (n : Nat) :
    (∃ t, accessTrap addr n .read = some t ∧ memRead m addr n = .error t) ∨
    (addr.toNat + n ≤ Config.hw.memSize ∧ memRead m addr n = .ok (m.readBytes addr.toNat n)) := by
  unfold memRead
  cases h : accessTrap addr n .read with
  | some t => exact .inl ⟨t, rfl, rfl⟩
  | none => exact .inr ⟨(accessTrap_eq_none.1 h).1, rfl⟩

/-- All that MemWrite can answer. -/
theorem memWrite_cases (m : Memory) (addr : Addr) (l : List Byte) :
    (∃ t, accessTrap addr l.length .write = some t ∧ memWrite m addr l = .error t) ∨
    (addr.toNat + l.length ≤ Config.hw.memSize ∧ Config.hw.origin ≤ addr.toNat ∧
      memWrite m addr l = .ok (m.writeBytes addr.toNat l)) := by
  unfold memWrite
  cases h : accessTrap addr l.length .write with
  | some t => exact .inl ⟨t, rfl, rfl⟩
  | none => exact .inr ⟨(accessTrap_eq_none.1 h).1, (accessTrap_eq_none.1 h).2 rfl, rfl⟩

/-- All that Fetch can answer. -/
theorem memFetch_cases (m : Memory) (addr : Addr) :
    (Config.hw.memSize < addr.toNat + 2 ∧
      memFetch m addr = .error ⟨.memoryOutOfBounds, some ⟨addr, 2, .fetch⟩⟩) ∨
    (addr.toNat + 2 ≤ Config.hw.memSize ∧ memFetch m addr = .ok (m.word addr.toNat)) := by
  unfold memFetch accessTrap
  by_cases h : Config.hw.memSize < addr.toNat + 2
  · exact .inl ⟨h, by simp only [h, if_true]⟩
  · exact .inr ⟨by omega, by simp only [h, if_false, reduceCtorEq, false_and]⟩

end Sys2Proof.Machine
end

