-- ==== Sys2Proof/Laws/Exec.lean ====
section
/-! SUPPORT. What the handlers' shared operations can answer, and what the handlers that can fault do. -/

namespace Sys2Proof.Machine

variable (s : State)

/-! ## Stack and skips -/

/-- All that `push` can answer. -/
theorem pushAddr_cases (l : List Addr) (a : Addr) :
    (Config.hw.stackDepth ≤ l.length ∧ pushAddr l a = .error ⟨.stackOverflow, none⟩) ∨
    (l.length < Config.hw.stackDepth ∧ pushAddr l a = .ok (a :: l)) := by
  unfold pushAddr
  by_cases h : Config.hw.stackDepth ≤ l.length
  · exact .inl ⟨h, if_pos h⟩
  · exact .inr ⟨by omega, if_neg h⟩

/-- All that `pop` can answer. -/
theorem popAddr_cases (l : List Addr) :
    (l = [] ∧ popAddr l = .error ⟨.stackUnderflow, none⟩) ∨
    (∃ a rest, l = a :: rest ∧ popAddr l = .ok (a, rest)) := by
  cases l with
  | nil => exact .inl ⟨rfl, rfl⟩
  | cons a rest => exact .inr ⟨a, rest, rfl, rfl⟩

/-- A skip changes PC at most, by 2 when its condition holds. -/
theorem skipIf_eq (c : Bool) : skipIf c s = s.setPc (if c then s.pc + 2 else s.pc) := by
  cases c <;> rfl

/-! ## The handlers that can raise a fatal error -/

/-- All that RET can do. -/
theorem execRet_cases :
    (s.stack = [] ∧ execRet s = .next (s.raise ⟨.stackUnderflow, none⟩)) ∨
    (∃ a rest, s.stack = a :: rest ∧ execRet s = .next ((s.setStack rest).setPc a)) := by
  unfold execRet
  rcases popAddr_cases s.stack with ⟨h, e⟩ | ⟨a, rest, h, e⟩
  · exact .inl ⟨h, by rw [e]⟩
  · exact .inr ⟨a, rest, h, by rw [e]⟩

/-- All that CALL can do. -/
theorem execCall_cases (nnn : BitVec 12) :
    (Config.hw.stackDepth ≤ s.stack.length ∧ execCall nnn s = .next (s.raise ⟨.stackOverflow, none⟩)) ∨
    (s.stack.length < Config.hw.stackDepth ∧
      execCall nnn s = .next ((s.setStack (s.pc :: s.stack)).setPc (nnnAddr nnn))) := by
  unfold execCall
  rcases pushAddr_cases s.stack s.pc with ⟨h, e⟩ | ⟨h, e⟩
  · exact .inl ⟨h, by rw [e]⟩
  · exact .inr ⟨h, by rw [e]⟩

theorem length_bcdBytes (b : Byte) : (bcdBytes b).length = 3 := rfl

theorem length_blockBytes (v : Vector Byte 16) (x : Reg) : (blockBytes v x).length = x.val + 1 := by
  have := x.isLt
  rw [blockBytes, List.length_take, Vector.length_toList, blockCount]; omega

theorem getElem_blockBytes (v : Vector Byte 16) (x : Reg) (k : Nat) (h : k < (blockBytes v x).length) :
    (blockBytes v x)[k] = v[k]'(by rw [length_blockBytes] at h; omega) := by
  simp [blockBytes]

theorem getElem_loadBlock (v : Vector Byte 16) (b : List Byte) (k : Reg) :
    (loadBlock v b)[k] = b.getD k.val v[k] := by
  simp [loadBlock]

/-- All that LD B can do. -/
theorem execLdB_cases (x : Reg) :
    (∃ t, accessTrap s.i 3 .write = some t ∧ execLdB x s = .next (s.raise t)) ∨
    (s.i.toNat + 3 ≤ Config.hw.memSize ∧ Config.hw.origin ≤ s.i.toNat ∧
      execLdB x s = .next (s.setMem (s.mem.writeBytes s.i.toNat (bcdBytes (s.reg x))))) := by
  unfold execLdB
  rcases memWrite_cases s.mem s.i (bcdBytes (s.reg x)) with ⟨t, h, e⟩ | ⟨h1, h2, e⟩
  · exact .inl ⟨t, h, by rw [e]⟩
  · exact .inr ⟨h1, h2, by rw [e]⟩

/-- All that LD [I], VX can do. -/
theorem execStoreRegs_cases (x : Reg) :
    (∃ t, accessTrap s.i (x.val + 1) .write = some t ∧ execStoreRegs x s = .next (s.raise t)) ∨
    (s.i.toNat + (x.val + 1) ≤ Config.hw.memSize ∧ Config.hw.origin ≤ s.i.toNat ∧
      execStoreRegs x s =
        .next ((s.setMem (s.mem.writeBytes s.i.toNat (blockBytes s.v x))).setI (blockEnd s.i x))) := by
  unfold execStoreRegs
  rcases memWrite_cases s.mem s.i (blockBytes s.v x) with ⟨t, h, e⟩ | ⟨h1, h2, e⟩
  · rw [length_blockBytes] at h
    exact .inl ⟨t, h, by rw [e]⟩
  · rw [length_blockBytes] at h1
    exact .inr ⟨h1, h2, by rw [e]⟩

/-- All that LD VX, [I] can do. -/
theorem execLoadRegs_cases (x : Reg) :
    (∃ t, accessTrap s.i (x.val + 1) .read = some t ∧ execLoadRegs x s = .next (s.raise t)) ∨
    (s.i.toNat + (x.val + 1) ≤ Config.hw.memSize ∧
      execLoadRegs x s =
        .next ((s.setV (loadBlock s.v (s.mem.readBytes s.i.toNat (x.val + 1)))).setI (blockEnd s.i x))) := by
  unfold execLoadRegs blockCount
  rcases memRead_cases s.mem s.i (x.val + 1) with ⟨t, h, e⟩ | ⟨h1, e⟩
  · exact .inl ⟨t, h, by rw [e]⟩
  · exact .inr ⟨h1, by rw [e]⟩

/-- All that reading a sprite can answer. -/
theorem spriteRows_cases (m : Memory) (i : Addr) (n : BitVec 4) :
    (∃ t, n ≠ 0 ∧ accessTrap i n.toNat .read = some t ∧ spriteRows m i n = .error t) ∨
    ((n = 0 ∨ i.toNat + n.toNat ≤ Config.hw.memSize) ∧ spriteRows m i n = .ok (m.readBytes i.toNat n.toNat)) := by
  unfold spriteRows rowCount
  by_cases hn : n = 0
  · subst hn; exact .inr ⟨.inl rfl, rfl⟩
  · rw [if_neg hn]
    rcases memRead_cases m i n.toNat with ⟨t, h, e⟩ | ⟨h1, e⟩
    · exact .inl ⟨t, hn, h, e⟩
    · exact .inr ⟨.inr h1, e⟩

/-- All that DRW can do, under either policy. -/
theorem drawSprite_cases (e : DrawEdge) (x y : Reg) (n : BitVec 4) :
    (∃ t, n ≠ 0 ∧ accessTrap s.i n.toNat .read = some t ∧ drawSprite e x y n s = s.raise t) ∨
    ((n = 0 ∨ s.i.toNat + n.toNat ≤ Config.hw.memSize) ∧
      drawSprite e x y n s = drawRows e x y (s.mem.readBytes s.i.toNat n.toNat) s) := by
  unfold drawSprite
  rcases spriteRows_cases s.mem s.i n with ⟨t, hn, h, e'⟩ | ⟨h1, e'⟩
  · exact .inl ⟨t, hn, h, by rw [e']⟩
  · exact .inr ⟨h1, by rw [e']⟩

/-! ## Sprites -/

theorem mem_rowColumns {b : Byte} {c : Nat} : c ∈ rowColumns b ↔ c < 8 ∧ b.getLsbD (7 - c) = true := by
  simp [rowColumns]

theorem nodup_rowColumns (b : Byte) : (rowColumns b).Nodup := List.nodup_range.filter _

theorem mem_spritePixels {e : DrawEdge} {x0 y : Nat} {rows : List Byte} {p : Pixel} :
    p ∈ spritePixels e x0 y rows ↔
      ∃ r c, ∃ h : r < rows.length, c < 8 ∧ rows[r].getLsbD (7 - c) = true ∧ place e (x0 + c) (y + r) = some p := by
  induction rows generalizing y with
  | nil => simp [spritePixels]
  | cons b rows ih =>
    simp only [spritePixels, List.mem_append, rowPixels, List.mem_filterMap, mem_rowColumns, ih]
    constructor
    · rintro (⟨c, ⟨hc, hb⟩, hp⟩ | ⟨r, c, h, hc, hb, hp⟩)
      · exact ⟨0, c, by simp, hc, hb, hp⟩
      · exact ⟨r + 1, c, by simp [h], hc, hb, by rw [← hp]; congr 1; omega⟩
    · rintro ⟨r, c, h, hc, hb, hp⟩
      cases r with
      | zero => exact .inl ⟨c, ⟨hc, hb⟩, hp⟩
      | succ r =>
        refine .inr ⟨r, c, by simpa using h, hc, hb, ?_⟩
        rw [← hp]; congr 1; omega

theorem place_wrap_inj {a b c d : Nat} (h : place .wrap a b = place .wrap c d) : a % 64 = c % 64 ∧ b % 32 = d % 32 := by
  simpa [place, Fin.ext_iff] using h

/-- Within 8 columns and 15 rows, two places on the screen are two pixels (R127's corner case). -/
theorem place_inj (e : DrawEdge) {x0 y c d r q : Nat} {p : Pixel} (hc : c < 8) (hd : d < 8) (hr : r < 15) (hq : q < 15)
    (h1 : place e (x0 + c) (y + r) = some p) (h2 : place e (x0 + d) (y + q) = some p) : c = d ∧ r = q := by
  cases e with
  | wrap =>
    have := place_wrap_inj (h1.trans h2.symm)
    omega
  | clip =>
    simp only [place] at h1 h2
    split at h1 <;> split at h2 <;> simp_all
    obtain ⟨a, b⟩ := h1
    simp [Prod.ext_iff] at h2
    omega

theorem nodup_rowPixels (e : DrawEdge) (x0 y : Nat) (b : Byte) : (rowPixels e x0 y b).Nodup := by
  rw [rowPixels]
  have h8 : ∀ c ∈ rowColumns b, c < 8 := fun c hc => (mem_rowColumns.1 hc).1
  have hn := nodup_rowColumns b
  generalize rowColumns b = l at *
  induction l with
  | nil => simp
  | cons c l ih =>
    rw [List.nodup_cons] at hn
    have ih' := ih (fun c hc => h8 c (by simp [hc])) hn.2
    cases hp : place e (x0 + c) y with
    | none => rw [List.filterMap_cons_none (by exact hp)]; exact ih'
    | some p =>
      rw [List.filterMap_cons_some (by exact hp), List.nodup_cons]
      refine ⟨fun hm => ?_, ih'⟩
      obtain ⟨d, hd, hdp⟩ := List.mem_filterMap.1 hm
      have := place_inj e (r := 0) (q := 0) (h8 c (by simp)) (h8 d (by simp [hd])) (by decide) (by decide) hp hdp
      exact hn.1 (this.1 ▸ hd)

/-- A sprite toggles each pixel at most once. -/
theorem nodup_spritePixels (e : DrawEdge) (x0 y : Nat) (rows : List Byte) (h : rows.length ≤ 15) :
    (spritePixels e x0 y rows).Nodup := by
  induction rows generalizing y with
  | nil => simp [spritePixels]
  | cons b rows ih =>
    rw [List.length_cons] at h
    rw [spritePixels, List.nodup_append]
    refine ⟨nodup_rowPixels e x0 y b, ih (y + 1) (by omega), fun p hp q hq e' => ?_⟩
    subst e'
    rw [rowPixels, List.mem_filterMap] at hp
    obtain ⟨c, hc, hcp⟩ := hp
    obtain ⟨r, d, hr, hd, -, hdp⟩ := mem_spritePixels.1 hq
    have := place_inj e (r := 0) (q := r + 1) (mem_rowColumns.1 hc).1 hd (by decide) (by omega) hcp
      (by rw [← hdp]; congr 1; omega)
    omega

end Sys2Proof.Machine
end

