-- ==== Sys2Proof/Laws/PerInstr.lean ====
section
/-! SUPPORT. Laws stated for each instruction: decoding the word of a well-formed instruction gives it back, with every operand. -/

namespace Sys2Proof.Laws.RoundTrip

/-- Decoding the encoded word gives the instruction back. -/
def Statement (i : Instr) : Prop := i.wf = true → decode (encode i) = .ok i

theorem cls : Statement .cls := by
  intro _
  decide

theorem ret : Statement .ret := by
  intro _
  decide

theorem sys (nnn : BitVec 12) : Statement (.sys nnn) := by
  intro h
  have hn := nnn.isLt
  have h1 : wordNNN 0x0 nnn ≠ 0x00E0 := fun e => by
    have := congrArg BitVec.toNat e
    rw [wordNNN_toNat (by decide)] at this
    simp [Instr.wf, ← BitVec.toNat_inj] at h this
    omega
  have h2 : wordNNN 0x0 nnn ≠ 0x00EE := fun e => by
    have := congrArg BitVec.toNat e
    rw [wordNNN_toNat (by decide)] at this
    simp [Instr.wf, ← BitVec.toNat_inj] at h this
    omega
  simp only [encode, decode, opField_wordNNN (op := 0x0) (by decide), decodeFamily0, if_neg h1, if_neg h2,
    nnnField_wordNNN (op := 0x0) (by decide)]

theorem jp (nnn : BitVec 12) : Statement (.jp nnn) := by
  intro _
  simp [encode, decode, opField_wordNNN (op := 0x1) (by decide), nnnField_wordNNN (op := 0x1) (by decide)]

theorem call (nnn : BitVec 12) : Statement (.call nnn) := by
  intro _
  simp [encode, decode, opField_wordNNN (op := 0x2) (by decide), nnnField_wordNNN (op := 0x2) (by decide)]

theorem seByte (x : Reg) (nn : Byte) : Statement (.seByte x nn) := by
  intro _
  simp [encode, decode, opField_wordXNN (op := 0x3) (by decide), xField_wordXNN (op := 0x3) (by decide), nnField_wordXNN (op := 0x3) (by decide)]

theorem sneByte (x : Reg) (nn : Byte) : Statement (.sneByte x nn) := by
  intro _
  simp [encode, decode, opField_wordXNN (op := 0x4) (by decide), xField_wordXNN (op := 0x4) (by decide), nnField_wordXNN (op := 0x4) (by decide)]

theorem seReg (x : Reg) (y : Reg) : Statement (.seReg x y) := by
  intro _
  simp [encode, decode, decodeFamily5, opField_wordXYN (op := 0x5) (by decide), xField_wordXYN (op := 0x5) (by decide), yField_wordXYN (op := 0x5) (by decide), nField_wordXYN (op := 0x5) (by decide)]

theorem ldByte (x : Reg) (nn : Byte) : Statement (.ldByte x nn) := by
  intro _
  simp [encode, decode, opField_wordXNN (op := 0x6) (by decide), xField_wordXNN (op := 0x6) (by decide), nnField_wordXNN (op := 0x6) (by decide)]

theorem addByte (x : Reg) (nn : Byte) : Statement (.addByte x nn) := by
  intro _
  simp [encode, decode, opField_wordXNN (op := 0x7) (by decide), xField_wordXNN (op := 0x7) (by decide), nnField_wordXNN (op := 0x7) (by decide)]

theorem ldReg (x : Reg) (y : Reg) : Statement (.ldReg x y) := by
  intro _
  simp [encode, decode, decodeFamily8, opField_wordXYN (op := 0x8) (by decide), xField_wordXYN (op := 0x8) (by decide), yField_wordXYN (op := 0x8) (by decide), nField_wordXYN (op := 0x8) (by decide)]

theorem orReg (x : Reg) (y : Reg) : Statement (.orReg x y) := by
  intro _
  simp [encode, decode, decodeFamily8, opField_wordXYN (op := 0x8) (by decide), xField_wordXYN (op := 0x8) (by decide), yField_wordXYN (op := 0x8) (by decide), nField_wordXYN (op := 0x8) (by decide)]

theorem andReg (x : Reg) (y : Reg) : Statement (.andReg x y) := by
  intro _
  simp [encode, decode, decodeFamily8, opField_wordXYN (op := 0x8) (by decide), xField_wordXYN (op := 0x8) (by decide), yField_wordXYN (op := 0x8) (by decide), nField_wordXYN (op := 0x8) (by decide)]

theorem xorReg (x : Reg) (y : Reg) : Statement (.xorReg x y) := by
  intro _
  simp [encode, decode, decodeFamily8, opField_wordXYN (op := 0x8) (by decide), xField_wordXYN (op := 0x8) (by decide), yField_wordXYN (op := 0x8) (by decide), nField_wordXYN (op := 0x8) (by decide)]

theorem addReg (x : Reg) (y : Reg) : Statement (.addReg x y) := by
  intro _
  simp [encode, decode, decodeFamily8, opField_wordXYN (op := 0x8) (by decide), xField_wordXYN (op := 0x8) (by decide), yField_wordXYN (op := 0x8) (by decide), nField_wordXYN (op := 0x8) (by decide)]

theorem subReg (x : Reg) (y : Reg) : Statement (.subReg x y) := by
  intro _
  simp [encode, decode, decodeFamily8, opField_wordXYN (op := 0x8) (by decide), xField_wordXYN (op := 0x8) (by decide), yField_wordXYN (op := 0x8) (by decide), nField_wordXYN (op := 0x8) (by decide)]

theorem shrReg (x : Reg) (y : Reg) : Statement (.shrReg x y) := by
  intro _
  simp [encode, decode, decodeFamily8, opField_wordXYN (op := 0x8) (by decide), xField_wordXYN (op := 0x8) (by decide), yField_wordXYN (op := 0x8) (by decide), nField_wordXYN (op := 0x8) (by decide)]

theorem subnReg (x : Reg) (y : Reg) : Statement (.subnReg x y) := by
  intro _
  simp [encode, decode, decodeFamily8, opField_wordXYN (op := 0x8) (by decide), xField_wordXYN (op := 0x8) (by decide), yField_wordXYN (op := 0x8) (by decide), nField_wordXYN (op := 0x8) (by decide)]

theorem shlReg (x : Reg) (y : Reg) : Statement (.shlReg x y) := by
  intro _
  simp [encode, decode, decodeFamily8, opField_wordXYN (op := 0x8) (by decide), xField_wordXYN (op := 0x8) (by decide), yField_wordXYN (op := 0x8) (by decide), nField_wordXYN (op := 0x8) (by decide)]

theorem sneReg (x : Reg) (y : Reg) : Statement (.sneReg x y) := by
  intro _
  simp [encode, decode, decodeFamily9, opField_wordXYN (op := 0x9) (by decide), xField_wordXYN (op := 0x9) (by decide), yField_wordXYN (op := 0x9) (by decide), nField_wordXYN (op := 0x9) (by decide)]

theorem ldI (nnn : BitVec 12) : Statement (.ldI nnn) := by
  intro _
  simp [encode, decode, opField_wordNNN (op := 0xa) (by decide), nnnField_wordNNN (op := 0xa) (by decide)]

theorem jpV0 (nnn : BitVec 12) : Statement (.jpV0 nnn) := by
  intro _
  simp [encode, decode, opField_wordNNN (op := 0xb) (by decide), nnnField_wordNNN (op := 0xb) (by decide)]

theorem rndByte (x : Reg) (nn : Byte) : Statement (.rndByte x nn) := by
  intro _
  simp [encode, decode, opField_wordXNN (op := 0xc) (by decide), xField_wordXNN (op := 0xc) (by decide), nnField_wordXNN (op := 0xc) (by decide)]

theorem drw (x : Reg) (y : Reg) (n : BitVec 4) : Statement (.drw x y n) := by
  intro _
  simp [encode, decode, opField_wordXYN (op := 0xd) (by decide), xField_wordXYN (op := 0xd) (by decide), yField_wordXYN (op := 0xd) (by decide), nField_wordXYN (op := 0xd) (by decide)]

theorem skp (x : Reg) : Statement (.skp x) := by
  intro _
  simp [encode, decode, decodeFamilyE, opField_wordXNN (op := 0xe) (by decide), xField_wordXNN (op := 0xe) (by decide), nnField_wordXNN (op := 0xe) (by decide)]

theorem sknp (x : Reg) : Statement (.sknp x) := by
  intro _
  simp [encode, decode, decodeFamilyE, opField_wordXNN (op := 0xe) (by decide), xField_wordXNN (op := 0xe) (by decide), nnField_wordXNN (op := 0xe) (by decide)]

theorem ldVxDt (x : Reg) : Statement (.ldVxDt x) := by
  intro _
  simp [encode, decode, decodeFamilyF, opField_wordXNN (op := 0xf) (by decide), xField_wordXNN (op := 0xf) (by decide), nnField_wordXNN (op := 0xf) (by decide)]

theorem ldVxK (x : Reg) : Statement (.ldVxK x) := by
  intro _
  simp [encode, decode, decodeFamilyF, opField_wordXNN (op := 0xf) (by decide), xField_wordXNN (op := 0xf) (by decide), nnField_wordXNN (op := 0xf) (by decide)]

theorem ldDtVx (x : Reg) : Statement (.ldDtVx x) := by
  intro _
  simp [encode, decode, decodeFamilyF, opField_wordXNN (op := 0xf) (by decide), xField_wordXNN (op := 0xf) (by decide), nnField_wordXNN (op := 0xf) (by decide)]

theorem ldStVx (x : Reg) : Statement (.ldStVx x) := by
  intro _
  simp [encode, decode, decodeFamilyF, opField_wordXNN (op := 0xf) (by decide), xField_wordXNN (op := 0xf) (by decide), nnField_wordXNN (op := 0xf) (by decide)]

theorem addI (x : Reg) : Statement (.addI x) := by
  intro _
  simp [encode, decode, decodeFamilyF, opField_wordXNN (op := 0xf) (by decide), xField_wordXNN (op := 0xf) (by decide), nnField_wordXNN (op := 0xf) (by decide)]

theorem ldF (x : Reg) : Statement (.ldF x) := by
  intro _
  simp [encode, decode, decodeFamilyF, opField_wordXNN (op := 0xf) (by decide), xField_wordXNN (op := 0xf) (by decide), nnField_wordXNN (op := 0xf) (by decide)]

theorem ldB (x : Reg) : Statement (.ldB x) := by
  intro _
  simp [encode, decode, decodeFamilyF, opField_wordXNN (op := 0xf) (by decide), xField_wordXNN (op := 0xf) (by decide), nnField_wordXNN (op := 0xf) (by decide)]

theorem storeRegs (x : Reg) : Statement (.storeRegs x) := by
  intro _
  simp [encode, decode, decodeFamilyF, opField_wordXNN (op := 0xf) (by decide), xField_wordXNN (op := 0xf) (by decide), nnField_wordXNN (op := 0xf) (by decide)]

theorem loadRegs (x : Reg) : Statement (.loadRegs x) := by
  intro _
  simp [encode, decode, decodeFamilyF, opField_wordXNN (op := 0xf) (by decide), xField_wordXNN (op := 0xf) (by decide), nnField_wordXNN (op := 0xf) (by decide)]

end Sys2Proof.Laws.RoundTrip
end

