-- ==== Sys2Proof/Laws/Step.lean ====
section
/-! SUPPORT. What a step can do: one transaction, and for a Cycle one case for each run state. -/

namespace Sys2Proof.Machine

/-- A step whose next transaction is a Cycle runs that Cycle. -/
theorem step_of_nextCycle {s s0 : State} {ticks : Nat} {rnd : Byte} (h : NextCycle s ticks rnd s0) :
    step s = cycle ticks rnd s0 := by
  rcases h with ⟨rest, h, rfl⟩ | ⟨h, rfl, rfl, rfl⟩
  · simp [step, nextTransaction, h, perform]
  · simp [step, nextTransaction, h]

/-- A Cycle starts from the state itself, but for the host's list and the count of free inputs. -/
theorem NextCycle.start_eq {s s0 : State} {ticks : Nat} {rnd : Byte} (h : NextCycle s ticks rnd s0) :
    s0 = { s with host := s0.host, draws := s0.draws } := by
  rcases h with ⟨rest, -, rfl⟩ | ⟨-, -, -, rfl⟩ <;> rfl

/-- Every step performs a transaction of the host's list or, when it is empty, a Cycle. -/
theorem step_cases (s : State) :
    (∃ ticks rnd s0, NextCycle s ticks rnd s0 ∧ step s = cycle ticks rnd s0) ∨
    (∃ t rest, s.host = t :: rest ∧ t.isCycle = false ∧ step s = perform t (s.setHost rest)) := by
  cases h : s.host with
  | nil =>
    have hn : NextCycle s _ _ _ := .inr ⟨h, rfl, rfl, rfl⟩
    exact .inl ⟨_, _, _, hn, step_of_nextCycle hn⟩
  | cons t rest =>
    cases ht : t.isCycle with
    | true =>
      cases t <;> simp only [Transaction.isCycle, Bool.false_eq_true] at ht
      have hn : NextCycle s _ _ _ := .inl ⟨rest, h, rfl⟩
      exact .inl ⟨_, _, _, hn, step_of_nextCycle hn⟩
    | false => exact .inr ⟨t, rest, rfl, ht, by simp [step, nextTransaction, h]⟩

theorem cycle_unloaded {s : State} (ticks : Nat) (rnd : Byte) (h : s.run = .unloaded) :
    cycle ticks rnd s = .next (endQuietly s) := by
  simp [cycle, h]

theorem cycle_halted {s : State} {f : FaultRecord} (ticks : Nat) (rnd : Byte) (h : s.run = .halted f) :
    cycle ticks rnd s = .next (endQuietly s) := by
  simp [cycle, h]

theorem cycle_awaitKey {s : State} {x : Reg} (ticks : Nat) (rnd : Byte) (h : s.run = .awaitKey x) :
    cycle ticks rnd s = .next (finishCycle ticks [] (takeKey x s)) := by
  simp [cycle, h]

theorem cycle_running {s : State} (ticks : Nat) (rnd : Byte) (h : s.run = .running) :
    cycle ticks rnd s = runningCycle ticks rnd s := by
  simp [cycle, h]

/-- All that a running cycle can do: a fetch fault, an unknown opcode, or one instruction. -/
theorem runningCycle_cases (ticks : Nat) (rnd : Byte) (s : State) :
    (Config.hw.memSize < s.pc.toNat + 2 ∧ runningCycle ticks rnd s =
      .next (endQuietly (s.halt s.pc ⟨.memoryOutOfBounds, some ⟨s.pc, 2, .fetch⟩⟩))) ∨
    (s.pc.toNat + 2 ≤ Config.hw.memSize ∧ (∃ e, decode (s.mem.word s.pc.toNat) = .error e) ∧
      runningCycle ticks rnd s =
        .next (finishCycle ticks [.unknownOpcode s.pc (s.mem.word s.pc.toNat)] (s.enter rnd))) ∨
    (s.pc.toNat + 2 ≤ Config.hw.memSize ∧ ∃ i, decode (s.mem.word s.pc.toNat) = .ok i ∧
      runningCycle ticks rnd s = executeCycle ticks rnd i s) := by
  unfold runningCycle
  rcases memFetch_cases s.mem s.pc with ⟨h, e⟩ | ⟨h, e⟩
  · exact .inl ⟨h, by rw [e]⟩
  · rw [e]
    cases hd : decode (s.mem.word s.pc.toNat) with
    | error r => exact .inr (.inl ⟨h, ⟨r, rfl⟩, by simp only [hd]⟩)
    | ok i => exact .inr (.inr ⟨h, i, rfl, by simp only [hd]⟩)

/-- The cycle of one instruction, given what its handler answers. -/
theorem executeCycle_next {ticks : Nat} {rnd : Byte} {i : Instr} {s t : State}
    (h : exec i (s.enter rnd) = .next t) : executeCycle ticks rnd i s = .next (afterExecute ticks t) := by
  rw [executeCycle, h]

/-- All that a waiting cycle can do before its ticks. -/
theorem takeKey_cases (x : Reg) (s : State) :
    (s.newKey = none ∧ takeKey x s = s) ∨
    (∃ k, s.newKey = some k ∧ takeKey x s = (s.setReg x (keyByte k)).setRun .running) := by
  unfold takeKey
  cases h : s.newKey with
  | none => exact .inl ⟨rfl, rfl⟩
  | some k => exact .inr ⟨k, rfl, rfl⟩

/-- The new key is the least newly pressed one. -/
theorem newKey_eq_some {s : State} {k : Reg} (h : s.newKey = some k) :
    s.newlyPressed k = true ∧ ∀ j < k, s.newlyPressed j = false := by
  rw [State.newKey, List.find?_eq_some_iff_getElem] at h
  obtain ⟨hk, i, hi, he, hlt⟩ := h
  refine ⟨hk, fun j hj => ?_⟩
  rw [List.getElem_finRange] at he
  subst he
  simpa using hlt j.val (by simpa [Fin.lt_def] using hj)

theorem newKey_eq_none {s : State} : s.newKey = none ↔ NoNewKey s := by
  simp [State.newKey, NoNewKey, State.newlyPressed]

theorem tickDown_toNat (ticks : Nat) (b : Byte) : (tickDown ticks b).toNat = b.toNat - ticks := by
  have := b.isLt
  rw [tickDown, BitVec.toNat_ofNat, Nat.mod_eq_of_lt (by omega)]

end Sys2Proof.Machine
end

