-- ==== Sys2Proof/Tests/Slice0.lean ====
section
/-! SUPPORT. Small tests: expected values are those of 95_test_vectors.md (W, CF, AL, M, DR, T and Y numbers) and of the tables of 10_state.md, 30_encoding.md. -/

namespace Sys2Proof.Tests

open Sys2Proof Sys2Proof.Machine

/-! ## Well-formedness smoke -/

theorem test_wf_refuses_sys_0E0 : (Instr.sys 0x0E0).wf = false := by decide
theorem test_wf_refuses_sys_0EE : (Instr.sys 0x0EE).wf = false := by decide
theorem test_wf_takes_sys_0E1 : (Instr.sys 0x0E1).wf = true := by decide

/-! ## Decoding: words written out from R67, and the table of 95_test_vectors.md 2.1 -/

theorem test_decode_family0 :
    decode 0x00E0 = .ok .cls ∧ decode 0x00EE = .ok .ret ∧ decode 0x0000 = .ok (.sys 0x000) ∧
    decode 0x00E1 = .ok (.sys 0x0E1) ∧ decode 0x0FFF = .ok (.sys 0xFFF) := by decide

theorem test_decode_jumps :
    decode 0x1234 = .ok (.jp 0x234) ∧ decode 0x2ABC = .ok (.call 0xABC) ∧
    decode 0xA300 = .ok (.ldI 0x300) ∧ decode 0xB123 = .ok (.jpV0 0x123) := by decide

theorem test_decode_bytes :
    decode 0x3A42 = .ok (.seByte 0xA 0x42) ∧ decode 0x4311 = .ok (.sneByte 3 0x11) ∧
    decode 0x6005 = .ok (.ldByte 0 5) ∧ decode 0x7203 = .ok (.addByte 2 3) ∧
    decode 0xC30F = .ok (.rndByte 3 0x0F) := by decide

theorem test_decode_families_5_9 :
    decode 0x5120 = .ok (.seReg 1 2) ∧ decode 0x5121 = .error .unknownFamily5 ∧
    decode 0x5FFF = .error .unknownFamily5 ∧ decode 0x9120 = .ok (.sneReg 1 2) ∧
    decode 0x912F = .error .unknownFamily9 := by decide

theorem test_decode_family8 :
    decode 0x8120 = .ok (.ldReg 1 2) ∧ decode 0x8121 = .ok (.orReg 1 2) ∧
    decode 0x8122 = .ok (.andReg 1 2) ∧ decode 0x8123 = .ok (.xorReg 1 2) ∧
    decode 0x8014 = .ok (.addReg 0 1) ∧ decode 0x8125 = .ok (.subReg 1 2) ∧
    decode 0x8126 = .ok (.shrReg 1 2) ∧ decode 0x8127 = .ok (.subnReg 1 2) ∧
    decode 0x800E = .ok (.shlReg 0 0) ∧ decode 0x8008 = .error .unknownFamily8 ∧
    decode 0x800F = .error .unknownFamily8 := by decide

theorem test_decode_draw : decode 0xD125 = .ok (.drw 1 2 5) := by decide

theorem test_decode_familyE :
    decode 0xE19E = .ok (.skp 1) ∧ decode 0xE1A1 = .ok (.sknp 1) ∧
    decode 0xE1A2 = .error .unknownFamilyE := by decide

theorem test_decode_familyF :
    decode 0xF107 = .ok (.ldVxDt 1) ∧ decode 0xF30A = .ok (.ldVxK 3) ∧ decode 0xF115 = .ok (.ldDtVx 1) ∧
    decode 0xF118 = .ok (.ldStVx 1) ∧ decode 0xF21E = .ok (.addI 2) ∧ decode 0xF129 = .ok (.ldF 1) ∧
    decode 0xFA33 = .ok (.ldB 0xA) ∧ decode 0xF355 = .ok (.storeRegs 3) ∧
    decode 0xFF65 = .ok (.loadRegs 0xF) ∧ decode 0xF130 = .error .unknownFamilyF := by decide

theorem test_bytes_are_big_endian : decodeBytes [0x60, 0x05] = .ok (.ldByte 0 5, []) := by decide
theorem test_bytes_truncated : decodeBytes [0x60] = .error .truncated := by decide
theorem test_table_word : decodeTableWord 16 0xD125 = some (.drw 1 2 5) := by decide

/-! ## Reset (R29, R36; Y1, Y2) -/

theorem test_font_low : Memory.readBytes State.reset.mem 0 40 =
    [0xF0, 0x90, 0x90, 0x90, 0xF0] ++
    [0x20, 0x60, 0x20, 0x20, 0x70] ++
    [0xF0, 0x10, 0xF0, 0x80, 0xF0] ++
    [0xF0, 0x10, 0xF0, 0x10, 0xF0] ++
    [0x90, 0x90, 0xF0, 0x10, 0x10] ++
    [0xF0, 0x80, 0xF0, 0x10, 0xF0] ++
    [0xF0, 0x80, 0xF0, 0x90, 0xF0] ++
    [0xF0, 0x10, 0x20, 0x40, 0x40] := by decide

theorem test_font_high : Memory.readBytes State.reset.mem 40 41 =
    [0xF0, 0x90, 0xF0, 0x90, 0xF0] ++
    [0xF0, 0x90, 0xF0, 0x10, 0xF0] ++
    [0xF0, 0x90, 0xF0, 0x90, 0x90] ++
    [0xE0, 0x90, 0xE0, 0x90, 0xE0] ++
    [0xF0, 0x80, 0x80, 0x80, 0xF0] ++
    [0xE0, 0x90, 0x90, 0x90, 0xE0] ++
    [0xF0, 0x80, 0xF0, 0x80, 0xF0] ++
    [0xF0, 0x80, 0xF0, 0x80, 0x80] ++ [0x00] := by decide

theorem test_config_valid : Config.hw.Valid := by decide

/-- The state of a Cycle with `ticks = 0` on word `w` at 0x200, as 95_test_vectors.md's conventions have it. -/
def at200 (w : Nat) (ticks : Nat := 0) (rnd : Byte := 0) : State :=
  (State.reset.withFetchWord 16 w).setHost [.cycle ticks rnd]

/-- The same at address `a`. -/
def atAddr (a : Addr) (w : Nat) : State :=
  ((State.reset.setPc a).withFetchWord 16 w).setHost [.cycle 0 0]

/-- One step answers a next state with property `p`. -/
def after (s : State) (p : State → Bool) : Bool :=
  match step s with
  | .next t => p t
  | .fault _ => false
  | .refused _ => false

/-- Two steps answer a next state with property `p`. -/
def after2 (s : State) (p : State → Bool) : Bool := after s fun t => after t p

/-- Whether exactly the listed keys are on. -/
def keysOn (l : List Reg) : KeyFlags := Vector.ofFn fun k => l.contains k

theorem test_Y2_cycle_unloaded :
    after (State.reset.setHost [.cycle 5 0x33]) (fun t => t == State.reset.setReply (.events [])) = true := by decide

/-! ## Control flow and skips -/

theorem test_CF1_sys : after (at200 0x0123) (fun t => t.pc == 0x202 && t.reply == .events []) = true := by decide
theorem test_CF2_ret : after ((atAddr 0x212 0x00EE).setStack [0x206]) (fun t => t.pc == 0x206 && t.stack == []) = true := by decide
theorem test_CF3_ret_underflow : after ((at200 0x00EE 1).setDt 5) (fun t =>
    t.run == .halted ⟨.stackUnderflow, 0x200, none⟩ && t.pc == 0x202 && t.dt == 5) = true := by decide
theorem test_CF4_jp : after (at200 0x1208) (fun t => t.pc == 0x208) = true := by decide
theorem test_CF5_jp_past_end : after2 ((at200 0x1FFF).setHost [.cycle 0 0, .cycle 0 0]) (fun t =>
    t.pc == 0xFFF && t.run == .halted ⟨.memoryOutOfBounds, 0xFFF, some ⟨0xFFF, 2, .fetch⟩⟩) = true := by decide
theorem test_CF9_call_sixteenth : after ((atAddr 0x204 0x2210).setStack (List.replicate 15 0x300)) (fun t =>
    t.stack == 0x206 :: List.replicate 15 0x300 && t.pc == 0x210) = true := by decide
theorem test_CF10_call_overflow : after ((atAddr 0x204 0x2210).setStack (List.replicate 16 0x300)) (fun t =>
    t.run == .halted ⟨.stackOverflow, 0x204, none⟩ && t.stack == List.replicate 16 0x300 && t.pc == 0x206) = true := by decide
theorem test_CF11_jpV0 : after ((at200 0xB300).setReg 0 0x10) (fun t => t.pc == 0x310 && t.i == 0) = true := by decide
theorem test_CF12_jpV0_index_mode :
    (jumpIndexed .index 0x300 ((State.reset.setPc 0x202).setReg 0 0x10)).i = 0x310 ∧
    (jumpIndexed .index 0x300 ((State.reset.setPc 0x202).setReg 0 0x10)).pc = 0x202 := by decide
theorem test_CF14_seByte : after ((atAddr 0x204 0x3005).setReg 0 5) (fun t => t.pc == 0x208) = true := by decide
theorem test_CF15_seByte_not : after ((atAddr 0x204 0x3005).setReg 0 4) (fun t => t.pc == 0x206) = true := by decide
theorem test_CF17_sneByte : after ((atAddr 0x300 0x4311).setReg 3 0x10) (fun t => t.pc == 0x304) = true := by decide
theorem test_CF18_sneByte_not : after ((atAddr 0x300 0x4311).setReg 3 0x11) (fun t => t.pc == 0x302) = true := by decide
theorem test_CF19_seReg : after (((at200 0x5120).setReg 1 7).setReg 2 7) (fun t => t.pc == 0x204) = true := by decide
theorem test_CF20_seReg_not : after (((at200 0x5120).setReg 1 7).setReg 2 8) (fun t => t.pc == 0x202) = true := by decide
theorem test_CF22_sneReg : after (((at200 0x9120).setReg 1 7).setReg 2 8) (fun t => t.pc == 0x204) = true := by decide
theorem test_CF24_sneReg_same : after ((at200 0x9110).setReg 1 7) (fun t => t.pc == 0x202) = true := by decide
theorem test_CF26_skp_not : after ((atAddr 0x220 0xE59E).setReg 5 0x0A) (fun t => t.pc == 0x222) = true := by decide
theorem test_CF27_skp_low_nibble : after (((atAddr 0x220 0xE59E).setReg 5 0x1A).setKeys (keysOn [0xA])) (fun t => t.pc == 0x224) = true := by decide
theorem test_CF28_sknp : after ((atAddr 0x220 0xE5A1).setReg 5 0x0A) (fun t => t.pc == 0x224) = true := by decide
theorem test_CF29_sknp_not : after (((atAddr 0x220 0xE5A1).setReg 5 0x0A).setKeys (keysOn [0xA])) (fun t => t.pc == 0x222) = true := by decide

/-! ## Arithmetic -/

theorem test_AL1_ldByte : after (at200 0x6005) (fun t => t.reg 0 == 5 && t.pc == 0x202) = true := by decide
theorem test_AL3_addByte : after (((at200 0x7203).setReg 2 0xFE).setReg 15 0x77) (fun t => t.reg 2 == 1 && t.reg 15 == 0x77) = true := by decide
theorem test_AL5_ldReg : after ((at200 0x8010).setReg 1 0x42) (fun t => t.reg 0 == 0x42) = true := by decide
theorem test_AL6_or : after ((((at200 0x8011).setReg 0 0xF0).setReg 1 0x0F).setReg 15 0x55) (fun t => t.reg 0 == 0xFF && t.reg 15 == 0x55) = true := by decide
theorem test_AL7_and : after ((((at200 0x8012).setReg 0 0xF0).setReg 1 0x3C).setReg 15 0x55) (fun t => t.reg 0 == 0x30 && t.reg 15 == 0x55) = true := by decide
theorem test_AL8_xor : after ((((at200 0x8013).setReg 0 0xFF).setReg 1 0x0F).setReg 15 0x55) (fun t => t.reg 0 == 0xF0 && t.reg 15 == 0x55) = true := by decide
theorem test_W3_add_carry : after (((at200 0x8014).setReg 0 250).setReg 1 10) (fun t => t.reg 0 == 4 && t.reg 1 == 10 && t.reg 15 == 1) = true := by decide
theorem test_AL13_add_flag_last : after (((at200 0x8F14).setReg 15 0x10).setReg 1 0x20) (fun t => t.reg 15 == 0) = true := by decide
theorem test_W4_sub_borrow : after (((at200 0x8015).setReg 0 5).setReg 1 10) (fun t => t.reg 0 == 251 && t.reg 15 == 0) = true := by decide
theorem test_AL16_sub_equal : after (((at200 0x8015).setReg 0 7).setReg 1 7) (fun t => t.reg 0 == 0 && t.reg 15 == 1) = true := by decide
theorem test_AL20_shr_source_is_vy : after (((at200 0x8016).setReg 1 2).setReg 0 3) (fun t => t.reg 0 == 1 && t.reg 15 == 0) = true := by decide
theorem test_AL21_shr_in_place : after ((at200 0x8006).setReg 0 3) (fun t => t.reg 0 == 1 && t.reg 15 == 1) = true := by decide
theorem test_AL23_subn_borrow : after (((at200 0x8017).setReg 0 10).setReg 1 5) (fun t => t.reg 0 == 251 && t.reg 15 == 0) = true := by decide
theorem test_AL24_subn : after (((at200 0x8017).setReg 0 5).setReg 1 10) (fun t => t.reg 0 == 5 && t.reg 15 == 1) = true := by decide
theorem test_AL26_shl : after ((at200 0x801E).setReg 1 0x81) (fun t => t.reg 0 == 2 && t.reg 1 == 0x81 && t.reg 15 == 1) = true := by decide
theorem test_AL28_shl_no_carry : after ((at200 0x801E).setReg 1 0x40) (fun t => t.reg 0 == 0x80 && t.reg 15 == 0) = true := by decide
theorem test_AL30_rnd : after (at200 0xC30F 0 0xA5) (fun t => t.reg 3 == 5) = true := by decide

/-! ## Index register and memory -/

theorem test_M1_ldI : after (at200 0xA300) (fun t => t.i == 0x300) = true := by decide
theorem test_M4_addI_past_store : after (((at200 0xF01E).setI 0x0FFF).setReg 0 0xFF) (fun t => t.i == 0x10FE && t.run == .running) = true := by decide
theorem test_M5_addI_wraps : after (((at200 0xF01E).setI 0xFFFF).setReg 0 1) (fun t => t.i == 0) = true := by decide
theorem test_M8_ldF : after ((at200 0xF029).setReg 0 0x0F) (fun t => t.i == 0x04B) = true := by decide
theorem test_M9_ldF_low_nibble : after ((at200 0xF029).setReg 0 0x1A) (fun t => t.i == 0x032) = true := by decide
theorem test_M14_ldB : after (((at200 0xF033).setI 0xFFD).setReg 0 142) (fun t => t.mem.readBytes 0xFFD 3 == [1, 4, 2] && t.i == 0xFFD) = true := by decide
theorem test_M16_ldB_protected : after (((at200 0xF033).setI 0x1FF).setReg 0 42) (fun t =>
    t.run == .halted ⟨.writeProtect, 0x200, some ⟨0x1FF, 3, .write⟩⟩ && t.mem == (at200 0xF033).mem) = true := by decide
theorem test_M18_storeRegs : after ((((at200 0xF255).setReg 0 1).setReg 1 2).setReg 2 3 |>.setI 0x400) (fun t =>
    t.mem.readBytes 0x3FF 5 == [0, 1, 2, 3, 0] && t.i == 0x403) = true := by decide
theorem test_M21_storeRegs_past_end : after ((at200 0xFF55).setI 0xFF1) (fun t =>
    t.run == .halted ⟨.memoryOutOfBounds, 0x200, some ⟨0xFF1, 16, .write⟩⟩ && t.i == 0xFF1 && t.pc == 0x202) = true := by decide
theorem test_M25_loadRegs_font : after (at200 0xF465) (fun t =>
    t.v.toList.take 6 == [0xF0, 0x90, 0x90, 0x90, 0xF0, 0x00] && t.i == 5) = true := by decide
theorem test_M27_loadRegs_past_end : after ((at200 0xFF65).setI 0xFF1) (fun t =>
    t.run == .halted ⟨.memoryOutOfBounds, 0x200, some ⟨0xFF1, 16, .read⟩⟩ && t.v == State.reset.v) = true := by decide

/-! ## Framebuffer -/

theorem test_DR1_cls : after ((at200 0x00E0).setFb (setPixel clearScreen (3, 4) true)) (fun t => t.fb == clearScreen) = true := by decide
theorem test_DR2_glyph0 : after (((at200 0xD125).setReg 1 10).setReg 2 5) (fun t =>
    t.fb == [(10, 5), (11, 5), (12, 5), (13, 5), (10, 6), (13, 6), (10, 7), (13, 7), (10, 8), (13, 8),
      (10, 9), (11, 9), (12, 9), (13, 9)] && t.reg 15 == 0) = true := by decide
theorem test_DR9_wrap_and_collision : after (((at200 0xD021).setReg 0 200).setReg 2 40 |>.setFb (setPixel clearScreen (8, 8) true)) (fun t =>
    t.fb == [(9, 8), (10, 8), (11, 8)] && t.reg 15 == 1) = true := by decide
theorem test_DR6_clip : spritePixels .clip 62 0 [0xFF] = [(62, 0), (63, 0)] := by decide
theorem test_DR8_clip : spritePixels .clip 3 31 [0x80, 0x80] = [(3, 31)] := by decide
theorem test_DR12_draw_past_end : after ((at200 0xD123).setI 0xFFE) (fun t =>
    t.run == .halted ⟨.memoryOutOfBounds, 0x200, some ⟨0xFFE, 3, .read⟩⟩ && t.fb == clearScreen) = true := by decide
theorem test_DR11_no_rows : after (((at200 0xD120).setI 0xFFFF).setReg 15 1) (fun t =>
    t.run == .running && t.fb == clearScreen && t.reg 15 == 0) = true := by decide

/-! ## Timers and key wait -/

theorem test_T1_ldVxDt : after ((at200 0xF307 1).setDt 0x3C) (fun t => t.reg 3 == 0x3C && t.dt == 0x3B) = true := by decide
theorem test_T3_ldDtVx : after ((at200 0xF015 1).setReg 0 1) (fun t => t.dt == 0) = true := by decide
theorem test_T4_ldStVx : after ((at200 0xF118).setReg 1 2) (fun t => t.st == 2 && t.soundActive) = true := by decide
theorem test_T6_saturates : after (((at200 0x0000 5).setSt 2).setDt 3) (fun t => t.st == 0 && t.dt == 0) = true := by decide
theorem test_T8_ldVxK : after (at200 0xF30A) (fun t => t.run == .awaitKey 3 && t.pc == 0x202) = true := by decide
theorem test_T12_lowest_key : after ((at200 0x0000).setRun (.awaitKey 3) |>.setKeys (keysOn [2, 9])) (fun t =>
    t.reg 3 == 2 && t.run == .running && t.pc == 0x200 && t.keysPrev == keysOn [2, 9]) = true := by decide
theorem test_T11_held_key : after (((at200 0x0000 4).setRun (.awaitKey 3)).setKeys (keysOn [5]) |>.setKeysPrev (keysOn [5]) |>.setDt 10)
    (fun t => t.run == .awaitKey 3 && t.dt == 6) = true := by decide

/-! ## Cycle, Reset and Load -/

theorem test_W9_unknown : after (at200 0x5FFF) (fun t =>
    t.pc == 0x202 && t.run == .running && t.reply == .events [.unknownOpcode 0x200 0x5FFF]) = true := by decide
theorem test_Y3_load_too_large :
    loadProgram (List.replicate 3585 0) State.reset = State.reset.setReply .loadTooLarge :=
  if_pos (by rw [List.length_replicate]; decide)
theorem test_Y4_load_whole_area :
    (loadProgram (List.replicate 3584 0x12) State.reset).reply = .loadOk := by
  rw [loadProgram, if_neg (by rw [List.length_replicate]; decide)]
theorem test_Y5_load_and_run : after2 (State.reset.setHost [.load [0x60, 0x07], .cycle 0 0]) (fun t =>
    t.reg 0 == 7 && t.pc == 0x202 && t.run == .running) = true := by decide
theorem test_Y6_load_stays_halted : after ((at200 0x0000).setRun (.halted ⟨.stackUnderflow, 0x200, none⟩) |>.setHost [.load [0x12, 0x00]]) (fun t =>
    t.run == .halted ⟨.stackUnderflow, 0x200, none⟩ && t.pc == 0x200 && t.mem.word 0x200 == 0x1200) = true := by decide
theorem test_Y10_reset : after ((at200 0x6001).setReg 0 9 |>.setHost [.reset]) (fun t => t == State.reset) = true := by decide

/-- The codes of 60_exceptions.md R137. -/
theorem test_fault_codes :
    [FatalError.stackUnderflow, .stackOverflow, .memoryOutOfBounds, .writeProtect].map FatalError.code = [1, 2, 3, 4] := by decide

/-- T12's state, read after its cycle: all three pieces of R33 in one answer. -/
theorem test_status_shows_run_and_keysPrev :
    after (((at200 0x0000).setRun (.awaitKey 3)).setKeysPrev (keysOn [2, 9]) |>.setHost [.readStatus]) (fun t =>
      t.reply == .status ⟨.awaitKey 3, keysOn [2, 9]⟩ && t.run == .awaitKey 3) = true := by decide

/-! ## Witnesses: states and operands that meet the hypotheses of a statement, one for each of its clauses, at the edges of their ranges -/

/-- A state as the handler of the word at 0x200 sees it, with I = `i`. -/
def handler (i : Addr) : State := ((State.reset.setPc 0x202).setRun .running).setI i

/-- A state that halted at 0x200 on a RET. -/
def haltedState : State := (handler 0).setRun (.halted ⟨.stackUnderflow, 0x200, none⟩)

theorem witness_DecodeEncodeBytesRoundTrip : (Instr.sys 0xFFF).wf = true ∧ (Instr.drw 15 15 15).wf = true := by decide
theorem witness_DecodedWordIsEncoding : decode 0x0000 = .ok (.sys 0) ∧ decode 0xFF65 = .ok (.loadRegs 15) := by decide
theorem witness_UnknownOpcodesAreTheListedForms :
    decode 0x5001 = .error .unknownFamily5 ∧ decode 0x8FFD = .error .unknownFamily8 ∧
    decode 0x900F = .error .unknownFamily9 ∧ decode 0xE0A0 = .error .unknownFamilyE ∧
    decode 0xFFFF = .error .unknownFamilyF ∧ decode 0xFF65 = .ok (.loadRegs 15) := by decide
theorem witness_SysDoesNothing :
    ((0x0E1 : BitVec 12) ≠ 0x0E0 ∧ (0x0E1 : BitVec 12) ≠ 0x0EE) ∧
    (atAddr 0xFFE 0x0FFF).run = .running ∧ (atAddr 0xFFE 0x0FFF).pc.toNat + 2 = 4096 ∧
    decode (wordAtPc (atAddr 0xFFE 0x0FFF)) = .ok (.sys 0xFFF) := by decide
theorem witness_RetPopsPc :
    ((handler 0).setStack [0xFFF]).stack = 0xFFF :: [] ∧ (handler 0).stack = [] ∧ (handler 0).pc = 0x200 + 2 := by decide
theorem witness_CallPushesPc :
    ((handler 0).setStack (List.replicate 15 0)).stack.length < 16 ∧
    ((handler 0).setStack (List.replicate 16 0)).stack.length = 16 ∧ (handler 0).pc = 0x200 + 2 := by decide
theorem witness_RegisterSkipsCompare : (0 < 1 ∧ 1 < 16) ∧ 0 < 15 ∧ 15 < 16 := by decide
theorem witness_KeySkipsTestKey :
    (15 : Reg).val = (((handler 0).setReg 0 0xFF).reg 0).toNat % 16 ∧ (0 : Reg).val = ((handler 0).reg 0).toNat % 16 := by decide
theorem witness_LdBStoresDigits :
    (512 ≤ (handler 512).i.toNat ∧ (handler 512).i.toNat + 3 ≤ 4096) ∧
    (512 ≤ (handler 4093).i.toNat ∧ (handler 4093).i.toNat + 3 = 4096) ∧
    ((handler 4094).pc = 0x200 + 2 ∧ 4096 < (handler 4094).i.toNat + 3) ∧
    ((handler 511).pc = 0x200 + 2 ∧ (handler 511).i.toNat < 512) := by decide
theorem witness_StoreRegsStoresBlock :
    (512 ≤ (handler 512).i.toNat ∧ (handler 512).i.toNat + ((15 : Reg).val + 1) ≤ 4096) ∧
    (512 ≤ (handler 4095).i.toNat ∧ (handler 4095).i.toNat + ((0 : Reg).val + 1) = 4096) ∧
    ((handler 4081).pc = 0x200 + 2 ∧ 4096 < (handler 4081).i.toNat + ((15 : Reg).val + 1)) ∧
    ((handler 511).pc = 0x200 + 2 ∧ (handler 511).i.toNat < 512) := by decide
theorem witness_LoadRegsLoadsBlock :
    (handler 0).i.toNat + ((15 : Reg).val + 1) ≤ 4096 ∧ (handler 4080).i.toNat + ((15 : Reg).val + 1) = 4096 ∧
    ((handler 4096).pc = 0x200 + 2 ∧ 4096 < (handler 4096).i.toNat + ((0 : Reg).val + 1)) := by decide
theorem witness_StoreThenLoadGivesRegistersBack :
    512 ≤ (handler 4080).i.toNat ∧ (handler 4080).i.toNat + ((15 : Reg).val + 1) ≤ 4096 := by decide
theorem witness_StoredBytesAreFetched :
    512 ≤ (handler 4080).i.toNat ∧ (handler 4080).i.toNat + ((15 : Reg).val + 1) ≤ 4096 ∧
    (15 : Reg).val = (14 : Reg).val + 1 ∧ (15 : Reg) ≤ 15 := by decide
theorem witness_DrwTogglesWrappedSprite :
    (((0 : BitVec 4) = 0 ∨ (handler 0xFFFF).i.toNat + (0 : BitVec 4).toNat ≤ 4096) ∧
     ((15 : BitVec 4) = 0 ∨ (handler 4081).i.toNat + (15 : BitVec 4).toNat ≤ 4096)) ∧
    ((handler 4082).pc = 0x200 + 2 ∧ (15 : BitVec 4) ≠ 0 ∧ 4096 < (handler 4082).i.toNat + (15 : BitVec 4).toNat) := by decide
/-- The glyph of 0 in the corner of the screen: its sprite reaches pixel (63, 31) and not beyond. -/
theorem witness_ClippedDrawTogglesVisibleSprite :
    ((5 : BitVec 4) = 0 ∨ (handler 0).i.toNat + (5 : BitVec 4).toNat ≤ 4096) ∧
    ∀ r c, SpriteBit (((handler 0).setReg 0 56).setReg 1 27) 5 r c →
      ((((handler 0).setReg 0 56).setReg 1 27).reg 0).toNat + c < 64 ∧
      ((((handler 0).setReg 0 56).setReg 1 27).reg 1).toNat + r < 32 :=
  ⟨by decide, fun r c ⟨hr, hc, _⟩ =>
    ⟨Nat.add_lt_add_left hc 56, Nat.add_lt_add_left (show r < 5 from hr) 27⟩⟩
theorem witness_DrawTwiceRestoresScreen :
    (1 : Reg) ≠ flagReg ∧ (2 : Reg) ≠ flagReg ∧ ((5 : BitVec 4) = 0 ∨ (handler 0).i.toNat + (5 : BitVec 4).toNat ≤ 4096) ∧
    (∀ p, getPixel (handler 0).fb p = false) ∧ ∃ r c, SpriteBit (handler 0) 5 r c :=
  ⟨by decide, by decide, by decide, fun _ => rfl, 0, 0, by decide, by decide, by decide⟩

theorem witness_TimerTransfers :
    ((at200 0xF007).run = .running ∧ (at200 0xF007).pc.toNat + 2 ≤ 4096 ∧ decode (wordAtPc (at200 0xF007)) = .ok (.ldVxDt 0)) ∧
    decode (wordAtPc (at200 0xFF15)) = .ok (.ldDtVx 15) ∧ decode (wordAtPc (at200 0xFF18)) = .ok (.ldStVx 15) := by decide

/-- A waiting state with the listed keys down, and none at the last cycle; its next transaction is a Cycle. -/
def waiting (l : List Reg) : State :=
  (((handler 0).setRun (.awaitKey 3)).setKeys (keysOn l)).setHost [.cycle 0 0]

theorem witness_WaitEndsOnLeastNewKey :
    NextCycle (waiting [15]) 0 0 ((waiting [15]).setHost []) ∧ (waiting [15]).run = .awaitKey 3 ∧
    (waiting [15]).keys[(15 : Reg)] = true ∧ (waiting [15]).keysPrev[(15 : Reg)] = false ∧
    ∀ j : Reg, j < 15 → ¬((waiting [15]).keys[j] = true ∧ (waiting [15]).keysPrev[j] = false) :=
  ⟨.inl ⟨_, rfl, rfl⟩, rfl, by decide, by decide, by decide⟩
theorem witness_WaitGoesOnWithoutNewKey :
    NextCycle (waiting []) 0 0 ((waiting []).setHost []) ∧ (waiting []).run = .awaitKey 3 ∧ NoNewKey (waiting []) ∧
    NoNewKey ((waiting [5]).setKeysPrev (keysOn [5])) :=
  ⟨.inl ⟨_, rfl, rfl⟩, rfl, by decide, by decide⟩
theorem witness_WaitLastsWhileNoKeyComes :
    (waiting []).run = .awaitKey 3 ∧ NoNewKey (waiting []) ∧
    ((waiting []).setHost [.cycle 7 1, .cycle 300 2]).host = [(7, 1), (300, 2)].map (fun c => .cycle c.1 c.2) :=
  ⟨rfl, by decide, rfl⟩

/-- Both forms of `NextCycle`: given by the host's list, and free. -/
theorem witness_NextCycle_free :
    NextCycle (handler 0) (Config.freeTicks 0) (Config.freeRnd 0) ((handler 0).setDraws 1) := .inr ⟨rfl, rfl, rfl, rfl⟩

/-- A RET on an empty stack, and a SYS at the last word of the store: the two ends of a cycle. -/
theorem witness_StepRunsDecodedInstruction :
    (NextCycle (at200 0x00EE) 0 0 ((at200 0x00EE).setHost []) ∧ (at200 0x00EE).run = .running ∧
      (at200 0x00EE).pc.toNat + 2 ≤ 4096 ∧ decode (wordAtPc (at200 0x00EE)) = .ok .ret ∧
      ∃ t f, exec .ret { (at200 0x00EE).setHost [] with pc := (at200 0x00EE).pc + 2, rnd := 0 } = .next t ∧ t.run = .halted f) ∧
    (NextCycle (atAddr 0xFFE 0x0FFF) 0 0 ((atAddr 0xFFE 0x0FFF).setHost []) ∧ (atAddr 0xFFE 0x0FFF).run = .running ∧
      (atAddr 0xFFE 0x0FFF).pc.toNat + 2 ≤ 4096 ∧ decode (wordAtPc (atAddr 0xFFE 0x0FFF)) = .ok (.sys 0xFFF) ∧
      ∃ t, exec (.sys 0xFFF) { (atAddr 0xFFE 0x0FFF).setHost [] with pc := (atAddr 0xFFE 0x0FFF).pc + 2, rnd := 0 } = .next t ∧
        t.run = .running) :=
  ⟨⟨.inl ⟨_, rfl, rfl⟩, by decide, by decide, by decide, _, _, rfl, rfl⟩,
   .inl ⟨_, rfl, rfl⟩, by decide, by decide, by decide, _, rfl, rfl⟩
theorem witness_UnknownOpcodeIsReportedNoOp :
    NextCycle (atAddr 0xFFE 0xFFFF) 0 0 ((atAddr 0xFFE 0xFFFF).setHost []) ∧ (atAddr 0xFFE 0xFFFF).run = .running ∧
    (atAddr 0xFFE 0xFFFF).pc.toNat + 2 = 4096 ∧ ∃ e, decode (wordAtPc (atAddr 0xFFE 0xFFFF)) = .error e :=
  ⟨.inl ⟨_, rfl, rfl⟩, by decide, by decide, .unknownFamilyF, by decide⟩
theorem witness_FetchPastStoreHalts :
    NextCycle ((at200 0).setPc 0xFFF) 0 0 (((at200 0).setPc 0xFFF).setHost []) ∧ ((at200 0).setPc 0xFFF).run = .running ∧
    4096 < ((at200 0).setPc 0xFFF).pc.toNat + 2 :=
  ⟨.inl ⟨_, rfl, rfl⟩, by decide, by decide⟩
theorem witness_FaultingInstructionTakesNoEffect :
    NextCycle (at200 0x00EE) 0 0 ((at200 0x00EE).setHost []) ∧ (at200 0x00EE).run = .running ∧
    (at200 0x00EE).pc.toNat + 2 ≤ 4096 ∧
    after (at200 0x00EE) (fun t => t.run == .halted ⟨.stackUnderflow, 0x200, none⟩) = true :=
  ⟨.inl ⟨_, rfl, rfl⟩, by decide, by decide, by decide⟩
theorem witness_IdleCycleChangesNothing :
    (NextCycle State.reset (Config.freeTicks 0) (Config.freeRnd 0) (State.reset.setDraws 1) ∧ State.reset.run = .unloaded) ∧
    NextCycle haltedState (Config.freeTicks 0) (Config.freeRnd 0) (haltedState.setDraws 1) ∧
    ∃ f, haltedState.run = .halted f :=
  ⟨⟨.inr ⟨rfl, rfl, rfl, rfl⟩, rfl⟩, .inr ⟨rfl, rfl, rfl, rfl⟩, _, rfl⟩
theorem witness_ResetRestoresEverything : (haltedState.setHost [.reset]).host = .reset :: [] := rfl
theorem witness_LoadCopiesOrRefuses :
    4096 - 512 < (List.replicate 3585 (0 : Byte)).length ∧ (List.replicate 3584 (0 : Byte)).length ≤ 4096 - 512 ∧
    (haltedState.setHost [.load []]).host = .load [] :: [] ∧ (∃ f, haltedState.run = .halted f) ∧
    ¬∃ f, State.reset.run = .halted f :=
  ⟨by rw [List.length_replicate]; decide, by rw [List.length_replicate], rfl, ⟨_, rfl⟩, nofun⟩
theorem witness_SetKeysReadsAndDestroy :
    (State.reset.setHost [.setKeys (keysOn [0])]).host = .setKeys (keysOn [0]) :: [] ∧
    (State.reset.setHost [.readFramebuffer]).host = .readFramebuffer :: [] ∧
    (State.reset.setHost [.readSoundActive]).host = .readSoundActive :: [] ∧
    (State.reset.setHost [.readStatus]).host = .readStatus :: [] ∧
    (State.reset.setHost [.destroy]).host = .destroy :: [] := ⟨rfl, rfl, rfl, rfl, rfl⟩
theorem witness_WhoWritesStackScreenMemory :
    (∃ t, exec (.call 0x300) (handler 0) = .next t ∧ t.stack ≠ (handler 0).stack) ∧
    (∃ t, exec (.drw 0 0 1) (handler 0) = .next t ∧ t.fb ≠ (handler 0).fb) ∧
    ∃ t, exec (.ldB 0) ((handler 512).setReg 0 100) = .next t ∧ ∃ a, t.mem.read a ≠ ((handler 512).setReg 0 100).mem.read a :=
  ⟨⟨_, rfl, by decide⟩, ⟨_, rfl, by decide⟩, _, rfl, 512, by decide⟩
theorem witness_WhoWritesIndexTimersKeys :
    (∃ t, exec (.ldI 1) (handler 0) = .next t ∧ t.i ≠ (handler 0).i) ∧
    (∃ t, exec (.ldDtVx 0) ((handler 0).setReg 0 1) = .next t ∧ t.dt ≠ ((handler 0).setReg 0 1).dt) ∧
    ∃ t, exec (.ldStVx 0) ((handler 0).setReg 0 1) = .next t ∧ t.st ≠ ((handler 0).setReg 0 1).st :=
  ⟨⟨_, rfl, by decide⟩, ⟨_, rfl, by decide⟩, _, rfl, by decide⟩
theorem witness_OnlySixInstructionsRaiseFaults :
    (¬∃ g, (handler 0).run = .halted g) ∧ ∃ t f, exec (.ldB 0) (handler 0) = .next t ∧ t.run = .halted f :=
  ⟨nofun, _, _, rfl, rfl⟩
theorem witness_OnlyRndReadsRnd :
    (∀ x nn, (Instr.addI 2) ≠ .rndByte x nn) ∧ ∃ t, exec (.addI 2) (handler 0) = .next t :=
  ⟨nofun, _, rfl⟩
/-- A cycle from each of the four run states. -/
theorem witness_RunStateChangesOfACycle :
    (State.reset.run = .unloaded ∧ after (State.reset.setHost [.cycle 1 0]) (fun t => t.run == .unloaded) = true) ∧
    ((∃ f, haltedState.run = .halted f) ∧ after (haltedState.setHost [.cycle 1 0]) (fun t => t.run == haltedState.run) = true) ∧
    ((waiting [0]).run = .awaitKey 3 ∧ after (waiting [0]) (fun t => t.run == .running) = true) ∧
    ((at200 0xF30A).run = .running ∧ after (at200 0xF30A) (fun t => t.run == .awaitKey 3) = true) :=
  ⟨by decide, ⟨⟨_, rfl⟩, by decide⟩, by decide, by decide⟩
theorem witness_HaltedUntilReset :
    haltedState.run = .halted ⟨.stackUnderflow, 0x200, none⟩ ∧
    after (haltedState.setHost [.load [1]]) (fun _ => true) = true ∧ after (haltedState.setHost [.reset]) (fun _ => true) = true :=
  ⟨rfl, by decide, by decide⟩
theorem witness_BytesBelowOriginAreProtected :
    after (at200 0xF033) (fun _ => true) = true ∧ 511 < 512 ∧ after (haltedState.setHost [.reset]) (fun _ => true) = true :=
  ⟨by decide, by decide, by decide⟩
/-- A state with listed memory, lit pixels, a full stack and a memory fault meets `Good`, and steps. -/
theorem witness_EveryStepKeepsGood :
    State.Good (((((handler 0).setMem [(512, 1), (4095, 0xFF)]).setFb [(63, 0), (0, 1)]).setStack (List.replicate 16 0xFFF)).setRun
      (.halted ⟨.writeProtect, 0x200, some ⟨511, 3, .write⟩⟩)) ∧
    State.Good (at200 0x2300) ∧ after (at200 0x2300) (fun _ => true) = true :=
  ⟨⟨by decide, by decide, by decide, by decide, ⟨rfl, by decide, by decide⟩⟩,
   ⟨by decide, by decide, by decide, by decide, trivial⟩, by decide⟩
theorem witness_EveryStepKeepsPcBounded :
    PcBounded (((handler 0).setPc 0x10FE).setStack [4096]) ∧ PcBounded (at200 0xBFFF) ∧ after (at200 0xBFFF) (fun _ => true) = true :=
  ⟨⟨by decide, List.forall_mem_singleton.2 (by decide)⟩, ⟨by decide, nofun⟩, by decide⟩
theorem witness_EvenTargetsKeepPcEven :
    PcEven (at200 0x1208) ∧ (at200 0x1208).run = .running ∧ decode (wordAtPc (at200 0x1208)) = .ok (.jp 0x208) ∧
    (0x208 : BitVec 12).toNat % 2 = 0 ∧ after (at200 0x1208) (fun _ => true) = true :=
  ⟨⟨by decide, nofun⟩, by decide, by decide, by decide, by decide⟩
theorem witness_CanonicalFormsAreUnique :
    Memory.wf [(512, 1), (4095, 0xFF)] ∧ Framebuffer.wf [(63, 0), (0, 1)] := by decide

end Sys2Proof.Tests
end

/-! Proofs of the statements about the state (10_state.md): what one instruction and one step can do, said once as two inversion lemmas, and the invariants and whole-machine rules that follow. -/

namespace Sys2Proof.Machine

/-! ## All that an instruction can do -/

/-- The instructions that can raise a fatal error (R138). -/
def MayRaise (i : Instr) : Prop :=
  i = .ret ∨ (∃ nnn, i = .call nnn) ∨ (∃ x y n, i = .drw x y n) ∨ ∃ x, i = .ldB x ∨ i = .storeRegs x ∨ i = .loadRegs x

/-- What instruction `i` can make of `s`, one constructor for each way the state can change. -/
inductive ExecEffect (s : State) : Instr → State → Prop
  /-- Registers at most: load, arithmetic, logic, shift, random, timer read; SYS changes none. -/
  | registers (i : Instr) (v : Vector Byte 16) : ExecEffect s i (s.setV v)
  | skip (i : Instr) (c : Bool) : ExecEffect s i (s.setPc (if c then s.pc + 2 else s.pc))
  | jp (nnn : BitVec 12) : ExecEffect s (.jp nnn) (s.setPc (nnnAddr nnn))
  | jpV0 (nnn : BitVec 12) : ExecEffect s (.jpV0 nnn) (s.setPc (nnnAddr nnn + byteAddr (s.reg 0)))
  | call (nnn : BitVec 12) (hlen : s.stack.length < Config.hw.stackDepth) :
      ExecEffect s (.call nnn) ((s.setStack (s.pc :: s.stack)).setPc (nnnAddr nnn))
  | ret (a : Addr) (rest : List Addr) (hs : s.stack = a :: rest) :
      ExecEffect s .ret ((s.setStack rest).setPc a)
  | cls : ExecEffect s .cls (s.setFb clearScreen)
  | drw (x y : Reg) (n : BitVec 4) (r : Framebuffer × Bool)
      (hr : r = blit (spritePixels .wrap (s.reg x).toNat (s.reg y).toNat (s.mem.readBytes s.i.toNat n.toNat)) s.fb) :
      ExecEffect s (.drw x y n) ((s.setFb r.1).setFlag (collisionFlag r.2))
  | ldI (nnn : BitVec 12) : ExecEffect s (.ldI nnn) (s.setI (nnnAddr nnn))
  | addI (x : Reg) : ExecEffect s (.addI x) (s.setI (s.i + byteAddr (s.reg x)))
  | ldF (x : Reg) : ExecEffect s (.ldF x) (s.setI (glyphAddr (s.reg x)))
  | ldB (x : Reg) (hend : s.i.toNat + 3 ≤ Config.hw.memSize) (hlow : Config.hw.origin ≤ s.i.toNat) :
      ExecEffect s (.ldB x) (s.setMem (s.mem.writeBytes s.i.toNat (bcdBytes (s.reg x))))
  | storeRegs (x : Reg) (hend : s.i.toNat + (x.val + 1) ≤ Config.hw.memSize)
      (hlow : Config.hw.origin ≤ s.i.toNat) :
      ExecEffect s (.storeRegs x)
        ((s.setMem (s.mem.writeBytes s.i.toNat (blockBytes s.v x))).setI (blockEnd s.i x))
  | loadRegs (x : Reg) (hend : s.i.toNat + (x.val + 1) ≤ Config.hw.memSize) :
      ExecEffect s (.loadRegs x)
        ((s.setV (loadBlock s.v (s.mem.readBytes s.i.toNat (x.val + 1)))).setI (blockEnd s.i x))
  | ldDtVx (x : Reg) : ExecEffect s (.ldDtVx x) (s.setDt (s.reg x))
  | ldStVx (x : Reg) : ExecEffect s (.ldStVx x) (s.setSt (s.reg x))
  | ldVxK (x : Reg) : ExecEffect s (.ldVxK x) (s.setRun (.awaitKey x))
  | raised (i : Instr) (t : Trap) (hi : MayRaise i)
      (ht : ∀ a, FaultRecord.Consistent ⟨t.reason, a, t.access⟩) : ExecEffect s i (s.raise t)

/-- A skip answers one of the listed effects. -/
theorem ExecEffect.skipIf (s : State) (i : Instr) (c : Bool) : ExecEffect s i (skipIf c s) := by
  rw [skipIf_eq]
  exact .skip i c

/-- An access fault is one of the listed effects. -/
theorem ExecEffect.accessFault {s : State} {i : Instr} {addr : Addr} {n : Nat} {k : AccessKind} {t : Trap}
    (hi : MayRaise i) (h : accessTrap addr n k = some t) : ExecEffect s i (s.raise t) :=
  .raised i t hi fun a => accessTrap_consistent a h

/-- Every instruction answers a next state, by one of the listed effects. -/
theorem exec_effect (i : Instr) (s : State) : ∃ t, exec i s = .next t ∧ ExecEffect s i t := by
  cases i with
  | cls => exact ⟨_, rfl, .cls⟩
  | ret =>
    rcases execRet_cases s with ⟨-, e⟩ | ⟨a, rest, hs, e⟩
    · exact ⟨_, e, .raised _ _ (.inl rfl) fun _ => trivial⟩
    · exact ⟨_, e, .ret a rest hs⟩
  | sys nnn => exact ⟨_, rfl, .registers _ s.v⟩
  | jp nnn => exact ⟨_, rfl, .jp nnn⟩
  | call nnn =>
    rcases execCall_cases s nnn with ⟨-, e⟩ | ⟨hlen, e⟩
    · exact ⟨_, e, .raised _ _ (.inr (.inl ⟨nnn, rfl⟩)) fun _ => trivial⟩
    · exact ⟨_, e, .call nnn hlen⟩
  | seByte | sneByte | seReg | sneReg | skp | sknp => exact ⟨_, rfl, .skipIf s _ _⟩
  | ldByte | addByte | ldReg | orReg | andReg | xorReg | rndByte | ldVxDt => exact ⟨_, rfl, .registers _ _⟩
  | addReg | subReg | shrReg | subnReg | shlReg => exact ⟨_, rfl, .registers _ _⟩
  | ldI nnn => exact ⟨_, rfl, .ldI nnn⟩
  | jpV0 nnn => exact ⟨_, rfl, .jpV0 nnn⟩
  | drw x y n =>
    rcases drawSprite_cases s .wrap x y n with ⟨t, -, ht, e⟩ | ⟨-, e⟩
    · exact ⟨_, congrArg Host.Outcome.next e, .accessFault (.inr (.inr (.inl ⟨x, y, n, rfl⟩))) ht⟩
    · exact ⟨_, congrArg Host.Outcome.next e, .drw x y n _ rfl⟩
  | ldVxK x => exact ⟨_, rfl, .ldVxK x⟩
  | ldDtVx x => exact ⟨_, rfl, .ldDtVx x⟩
  | ldStVx x => exact ⟨_, rfl, .ldStVx x⟩
  | addI x => exact ⟨_, rfl, .addI x⟩
  | ldF x => exact ⟨_, rfl, .ldF x⟩
  | ldB x =>
    rcases execLdB_cases s x with ⟨t, ht, e⟩ | ⟨hend, hlow, e⟩
    · exact ⟨_, e, .accessFault (.inr (.inr (.inr ⟨x, .inl rfl⟩))) ht⟩
    · exact ⟨_, e, .ldB x hend hlow⟩
  | storeRegs x =>
    rcases execStoreRegs_cases s x with ⟨t, ht, e⟩ | ⟨hend, hlow, e⟩
    · exact ⟨_, e, .accessFault (.inr (.inr (.inr ⟨x, .inr (.inl rfl)⟩))) ht⟩
    · exact ⟨_, e, .storeRegs x hend hlow⟩
  | loadRegs x =>
    rcases execLoadRegs_cases s x with ⟨t, ht, e⟩ | ⟨hend, e⟩
    · exact ⟨_, e, .accessFault (.inr (.inr (.inr ⟨x, .inr (.inr rfl)⟩))) ht⟩
    · exact ⟨_, e, .loadRegs x hend⟩

/-- The inversion lemma of `exec`. -/
theorem effect_of_exec {i : Instr} {s t : State} (h : exec i s = .next t) : ExecEffect s i t := by
  obtain ⟨t', e, ht⟩ := exec_effect i s
  cases e.symm.trans h
  exact ht

/-! ## All that a step can do -/

/-- `t` agrees with `s` in the parts of the core that the invariants read. -/
structure SameCore (s t : State) : Prop where
  pc    : t.pc = s.pc
  stack : t.stack = s.stack
  mem   : t.mem = s.mem
  fb    : t.fb = s.fb
  run   : t.run = s.run

theorem sameCore_finishCycle (ticks : Nat) (l : List Event) (s : State) : SameCore s (finishCycle ticks l s) :=
  ⟨rfl, rfl, rfl, rfl, rfl⟩

theorem sameCore_endQuietly (s : State) : SameCore s (endQuietly s) := ⟨rfl, rfl, rfl, rfl, rfl⟩

theorem sameCore_afterExecute (ticks : Nat) (s : State) : SameCore s (afterExecute ticks s) := by
  unfold afterExecute
  split
  · exact sameCore_endQuietly s
  · exact sameCore_finishCycle ticks [] s

theorem NextCycle.sameCore {s s0 : State} {ticks : Nat} {rnd : Byte} (h : NextCycle s ticks rnd s0) :
    SameCore s s0 := by
  rw [h.start_eq]
  exact ⟨rfl, rfl, rfl, rfl, rfl⟩

theorem NextCycle.v_eq {s s0 : State} {ticks : Nat} {rnd : Byte} (h : NextCycle s ticks rnd s0) : s0.v = s.v := by
  rw [h.start_eq]

/-- The word a fetch reads, in the form the statements use. -/
theorem wordAtPc_eq_word (s : State) : wordAtPc s = s.mem.word s.pc.toNat := by
  apply BitVec.eq_of_toNat_eq
  rw [Memory.word, wordOfBytes_toNat, wordAtPc, BitVec.toNat_ofNat]
  have h0 := (s.mem.read s.pc.toNat).isLt
  have h1 := (s.mem.read (s.pc.toNat + 1)).isLt
  omega

theorem SameCore.wordAtPc_eq {s t : State} (h : SameCore s t) : wordAtPc t = wordAtPc s := by
  rw [wordAtPc, wordAtPc, h.pc, h.mem]

/-- What a Cycle with input `rnd` can make of the state it starts from. -/
inductive CycleEffect (rnd : Byte) (s s' : State) : Prop
  /-- A no-op cycle, or a wait that goes on (R86, R90). -/
  | idle (hr : s.run ≠ .running) (h : SameCore s s')
  | keyTaken (x : Reg) (hr : s.run = .awaitKey x) (h : SameCore (s.setRun .running) s')
  | fetchFault (hr : s.run = .running) (hpc : Config.hw.memSize < s.pc.toNat + 2)
      (h : SameCore (s.halt s.pc ⟨.memoryOutOfBounds, some ⟨s.pc, 2, .fetch⟩⟩) s')
  | unknownOpcode (hr : s.run = .running) (hpc : s.pc.toNat + 2 ≤ Config.hw.memSize)
      (h : SameCore (s.enter rnd) s')
  | executed (i : Instr) (t : State) (hr : s.run = .running) (hpc : s.pc.toNat + 2 ≤ Config.hw.memSize)
      (hd : decode (wordAtPc s) = .ok i) (he : ExecEffect (s.enter rnd) i t) (h : SameCore t s')

/-- The inversion lemma of a running cycle. -/
theorem effect_of_runningCycle {ticks : Nat} {rnd : Byte} {s s' : State} (hr : s.run = .running)
    (h : runningCycle ticks rnd s = .next s') : CycleEffect rnd s s' := by
  rcases runningCycle_cases ticks rnd s with ⟨hpc, e⟩ | ⟨hpc, -, e⟩ | ⟨hpc, i, hd, e⟩
  · cases e.symm.trans h
    exact .fetchFault hr hpc (sameCore_endQuietly _)
  · cases e.symm.trans h
    exact .unknownOpcode hr hpc (sameCore_finishCycle ..)
  · obtain ⟨t, ht, heff⟩ := exec_effect i (s.enter rnd)
    cases (e.trans (executeCycle_next ht)).symm.trans h
    exact .executed i t hr hpc (by rw [wordAtPc_eq_word, hd]) heff (sameCore_afterExecute ticks t)

/-- The inversion lemma of a waiting cycle. -/
theorem effect_of_takeKey {ticks : Nat} {rnd : Byte} {s : State} {x : Reg} (hr : s.run = .awaitKey x) :
    CycleEffect rnd s (finishCycle ticks [] (takeKey x s)) := by
  rcases takeKey_cases x s with ⟨-, e⟩ | ⟨k, -, e⟩ <;> rw [e]
  · exact .idle (by simp [hr]) (sameCore_finishCycle ..)
  · exact .keyTaken x hr ⟨rfl, rfl, rfl, rfl, rfl⟩

/-- The inversion lemma of a Cycle. -/
theorem effect_of_cycle {ticks : Nat} {rnd : Byte} {s s' : State} (h : cycle ticks rnd s = .next s') :
    CycleEffect rnd s s' := by
  cases hr : s.run with
  | unloaded =>
    cases (cycle_unloaded ticks rnd hr).symm.trans h
    exact .idle (by simp [hr]) (sameCore_endQuietly s)
  | running => exact effect_of_runningCycle hr ((cycle_running ticks rnd hr).symm.trans h)
  | awaitKey x =>
    cases (cycle_awaitKey ticks rnd hr).symm.trans h
    exact effect_of_takeKey hr
  | halted f =>
    cases (cycle_halted ticks rnd hr).symm.trans h
    exact .idle (by simp [hr]) (sameCore_endQuietly s)

/-- What a step can make of `s`. -/
inductive StepEffect (s s' : State) : Prop
  | cycle (ticks : Nat) (rnd : Byte) (s0 : State) (hn : NextCycle s ticks rnd s0) (h : CycleEffect rnd s0 s')
  | reset (h : SameCore State.reset s')
  | load (bytes : List Byte) (hlen : Config.hw.origin + bytes.length ≤ Config.hw.memSize)
      (h : SameCore { s with mem := s.mem.writeBytes Config.hw.origin bytes, pc := 512, run := runAfterLoad s.run } s')
  /-- A Load that is refused, SetKeys, or a read. -/
  | idle (h : SameCore s s')

/-- The inversion lemma of `step`. -/
theorem effect_of_step {s s' : State} (h : step s = .next s') : StepEffect s s' := by
  rcases step_cases s with ⟨ticks, rnd, s0, hn, e⟩ | ⟨t, rest, -, ht, e⟩
  · exact .cycle ticks rnd s0 hn (effect_of_cycle (e.symm.trans h))
  · have hp := e.symm.trans h
    cases t with
    | reset => cases hp; exact .reset ⟨rfl, rfl, rfl, rfl, rfl⟩
    | load bytes =>
      cases hp
      unfold loadProgram
      split
      · exact .idle ⟨rfl, rfl, rfl, rfl, rfl⟩
      · next hlen =>
        have : Config.hw.origin ≤ Config.hw.memSize := by decide
        exact .load bytes (by omega) ⟨rfl, rfl, rfl, rfl, rfl⟩
    | setKeys | readFramebuffer | readSoundActive | readStatus => cases hp; exact .idle ⟨rfl, rfl, rfl, rfl, rfl⟩
    | cycle => cases ht
    | destroy => cases hp

/-! ## The stored data stay well-formed -/

/-- Good reads four fields of the state. -/
theorem State.Good.of_eq {s t : State} (hg : s.Good) (hmem : t.mem = s.mem := by simp)
    (hfb : t.fb = s.fb := by simp) (hstack : t.stack = s.stack := by simp) (hrun : t.run = s.run := by simp) : t.Good where
  mem := hmem ▸ hg.mem
  low := hmem ▸ hg.low
  fb := hfb ▸ hg.fb
  stack := hstack ▸ hg.stack
  run := hrun ▸ hg.run

theorem SameCore.good {s t : State} (h : SameCore s t) (hg : s.Good) : t.Good :=
  hg.of_eq h.mem h.fb h.stack h.run

theorem good_reset : State.reset.Good where
  mem := Memory.wf_reset
  low := nofun
  fb := Framebuffer.wf_clearScreen
  stack := Nat.zero_le _
  run := trivial

/-- A run of writes from ORIGIN on, inside the store, keeps the stored data well-formed. -/
theorem State.Good.setMem_writeBytes {s : State} (hg : s.Good) {a : Nat} {l : List Byte}
    (hend : a + l.length ≤ Config.hw.memSize) (hlow : Config.hw.origin ≤ a) :
    (s.setMem (s.mem.writeBytes a l)).Good :=
  { hg with mem := Memory.wf_writeBytes l hg.mem hend, low := Memory.lowIntact_writeBytes l hg.low hlow }

theorem State.Good.setRun {s : State} (hg : s.Good) {r : Run} (hr : r.Consistent) : (s.setRun r).Good :=
  { hg with run := hr }

theorem State.Good.halt {s : State} (hg : s.Good) {a : Addr} {t : Trap}
    (ht : FaultRecord.Consistent ⟨t.reason, a, t.access⟩) : (s.halt a t).Good :=
  hg.setRun ht

theorem State.Good.setStack {s : State} (hg : s.Good) {l : List Addr} (hl : StackBounded l) : (s.setStack l).Good :=
  { hg with stack := hl }

theorem State.Good.setFb {s : State} (hg : s.Good) {g : Framebuffer} (hf : Framebuffer.wf g) : (s.setFb g).Good :=
  { hg with fb := hf }

theorem consistent_runAfterLoad {r : Run} (h : r.Consistent) : (runAfterLoad r).Consistent := by
  cases r with
  | halted f => exact h
  | unloaded | running | awaitKey => trivial

/-- Every instruction keeps the stored data well-formed. -/
theorem ExecEffect.good {s t : State} {i : Instr} (he : ExecEffect s i t) (hg : s.Good) : t.Good := by
  cases he with
  | call nnn hlen => exact (hg.setStack (l := s.pc :: s.stack) hlen).of_eq
  | ret a rest hs =>
    have hlen : StackBounded rest := by
      have := hg.stack
      rw [hs] at this
      exact Nat.le_of_succ_le this
    exact (hg.setStack hlen).of_eq
  | cls => exact hg.setFb Framebuffer.wf_clearScreen
  | drw x y n r hr =>
    have hf : Framebuffer.wf r.1 := hr ▸ Framebuffer.wf_blit _ hg.fb
    exact (hg.setFb hf).of_eq
  | ldB x hend hlow => exact hg.setMem_writeBytes hend hlow
  | storeRegs x hend hlow =>
    have hm := hg.setMem_writeBytes (l := blockBytes s.v x) (by rwa [length_blockBytes]) hlow
    exact hm.of_eq
  | ldVxK x => exact hg.setRun trivial
  | raised _ t _ ht => exact hg.halt (ht s.instrAddr)
  | registers | skip | jp | jpV0 | ldI | addI | ldF | loadRegs | ldDtVx | ldStVx =>
    exact hg.of_eq

theorem State.Good.enter {s : State} (hg : s.Good) (rnd : Byte) : (s.enter rnd).Good :=
  hg.of_eq

theorem CycleEffect.good {rnd : Byte} {s s' : State} (hc : CycleEffect rnd s s') (hg : s.Good) : s'.Good := by
  cases hc with
  | idle _ h => exact h.good hg
  | keyTaken x _ h => exact h.good (hg.setRun trivial)
  | fetchFault _ hpc h => exact h.good (hg.halt hpc)
  | unknownOpcode _ _ h => exact h.good (hg.enter rnd)
  | executed i t _ _ _ he h => exact h.good (he.good (hg.enter rnd))

/-- Settles O56: each effect of a step keeps the stored data well-formed. -/
theorem everyStepKeepsGood : Obligations.EveryStepKeepsGood := by
  intro s s' hg hstep
  cases effect_of_step hstep with
  | cycle ticks rnd s0 hn h => exact h.good (hn.sameCore.good hg)
  | reset h => exact h.good good_reset
  | load bytes hlen h =>
    have hm := hg.setMem_writeBytes hlen le_rfl
    exact h.good ⟨hm.mem, hm.low, hm.fb, hm.stack, consistent_runAfterLoad hg.run⟩
  | idle h => exact h.good hg

/-! ## PC and return addresses stay bounded -/

theorem PcBounded.of_eq {s t : State} (hb : PcBounded s) (hpc : t.pc = s.pc := by simp)
    (hstack : t.stack = s.stack := by simp) : PcBounded t :=
  ⟨hpc ▸ hb.pc, hstack ▸ hb.stack⟩

theorem SameCore.pcBounded {s t : State} (h : SameCore s t) (hb : PcBounded s) : PcBounded t :=
  hb.of_eq h.pc h.stack

theorem pcBounded_reset : PcBounded State.reset := ⟨by decide, nofun⟩

theorem toNat_nnnAddr (nnn : BitVec 12) : (nnnAddr nnn).toNat = nnn.toNat :=
  BitVec.toNat_setWidth_of_le (by decide)

/-- The sum of JP V0 is not reduced (R97). -/
theorem toNat_nnnAddr_add_byteAddr (nnn : BitVec 12) (b : Byte) :
    (nnnAddr nnn + byteAddr b).toNat = nnn.toNat + b.toNat := by
  have hb : (byteAddr b).toNat = b.toNat := BitVec.toNat_setWidth_of_le (by decide)
  have := nnn.isLt
  have := b.isLt
  rw [BitVec.toNat_add, toNat_nnnAddr, hb]
  omega

theorem nnnAddr_le_maxPc (nnn : BitVec 12) : (nnnAddr nnn).toNat ≤ maxPc := by
  rw [toNat_nnnAddr]
  exact (Nat.le_of_lt_succ nnn.isLt).trans (by decide)

theorem nnnAddr_add_byteAddr_le_maxPc (nnn : BitVec 12) (b : Byte) : (nnnAddr nnn + byteAddr b).toNat ≤ maxPc := by
  rw [toNat_nnnAddr_add_byteAddr]
  exact Nat.add_le_add (Nat.le_of_lt_succ nnn.isLt) (Nat.le_of_lt_succ b.isLt)

theorem toNat_add_two {a : Addr} (h : a.toNat ≤ maxPc) : (a + 2).toNat = a.toNat + 2 := by
  simp only [maxPc] at h
  bv_omega

/-- An instruction fetched inside the store leaves PC and the return addresses bounded. -/
theorem ExecEffect.pcBounded {s t : State} {i : Instr} (he : ExecEffect s i t) (hb : PcBounded s)
    (hpc : s.pc.toNat ≤ Config.hw.memSize) : PcBounded t := by
  cases he with
  | skip _ c =>
    refine ⟨?_, hb.stack⟩
    cases c
    · exact hb.pc
    · exact (toNat_add_two hb.pc).trans_le ((Nat.add_le_add_right hpc 2).trans (by decide))
  | jp nnn => exact ⟨nnnAddr_le_maxPc nnn, hb.stack⟩
  | jpV0 nnn => exact ⟨nnnAddr_add_byteAddr_le_maxPc nnn _, hb.stack⟩
  | call nnn => exact ⟨nnnAddr_le_maxPc nnn, List.forall_mem_cons.2 ⟨hpc, hb.stack⟩⟩
  | ret a rest hs =>
    have hst := hb.stack
    rw [hs, List.forall_mem_cons] at hst
    exact ⟨hst.1.trans (by decide), hst.2⟩
  | registers | cls | drw | ldI | addI | ldF | ldB | storeRegs | loadRegs | ldDtVx | ldStVx | ldVxK | raised =>
    exact hb.of_eq

theorem CycleEffect.pcBounded {rnd : Byte} {s s' : State} (hc : CycleEffect rnd s s') (hb : PcBounded s) :
    PcBounded s' := by
  have henter (hpc : s.pc.toNat + 2 ≤ Config.hw.memSize) : (s.enter rnd).pc.toNat ≤ Config.hw.memSize := by
    rwa [State.enter_pc, toNat_add_two hb.pc]
  cases hc with
  | idle _ h => exact h.pcBounded hb
  | keyTaken x _ h => exact h.pcBounded hb.of_eq
  | fetchFault _ _ h => exact h.pcBounded hb.of_eq
  | unknownOpcode _ hpc h => exact h.pcBounded ⟨(henter hpc).trans (by decide), hb.stack⟩
  | executed i t _ hpc _ he h =>
    exact h.pcBounded (he.pcBounded ⟨(henter hpc).trans (by decide), hb.stack⟩ (henter hpc))

/-- Settles O57: a fetch reads inside the store, so only a skip adds to PC, and jumps stay below 0x10FF. -/
theorem everyStepKeepsPcBounded : Obligations.EveryStepKeepsPcBounded := by
  intro s s' hb hstep
  cases effect_of_step hstep with
  | cycle ticks rnd s0 hn h => exact h.pcBounded (hn.sameCore.pcBounded hb)
  | reset h => exact h.pcBounded pcBounded_reset
  | load bytes _ h => exact h.pcBounded ⟨pcBounded_reset.pc, hb.stack⟩
  | idle h => exact h.pcBounded hb

/-! ## PC stays even -/

theorem PcEven.of_eq {s t : State} (hp : PcEven s) (hpc : t.pc = s.pc := by simp)
    (hstack : t.stack = s.stack := by simp) : PcEven t :=
  ⟨hpc ▸ hp.pc, hstack ▸ hp.stack⟩

theorem SameCore.pcEven {s t : State} (h : SameCore s t) (hp : PcEven s) : PcEven t :=
  hp.of_eq h.pc h.stack

theorem pcEven_reset : PcEven State.reset := ⟨by decide, nofun⟩

/-- Adding 2 keeps an address even, also when the sum wraps. -/
theorem even_add_two {a : Addr} (h : a.toNat % 2 = 0) : (a + 2).toNat % 2 = 0 := by
  bv_omega

/-- Whether a target is even depends on the registers alone. -/
theorem TargetEven.of_v_eq {s t : State} {i : Instr} (hv : t.v = s.v) (h : TargetEven s i) : TargetEven t i := by
  cases i with
  | jpV0 nnn => simpa only [TargetEven, State.reg, hv] using h
  | _ => exact h

/-- An instruction whose own target is even keeps PC and the return addresses even. -/
theorem ExecEffect.pcEven {s t : State} {i : Instr} (he : ExecEffect s i t) (hp : PcEven s)
    (ht : TargetEven s i) : PcEven t := by
  cases he with
  | skip _ c =>
    refine ⟨?_, hp.stack⟩
    cases c
    · exact hp.pc
    · exact even_add_two hp.pc
  | jp nnn => exact ⟨(congrArg (· % 2) (toNat_nnnAddr nnn)).trans ht, hp.stack⟩
  | jpV0 nnn => exact ⟨(congrArg (· % 2) (toNat_nnnAddr_add_byteAddr nnn _)).trans ht, hp.stack⟩
  | call nnn _ =>
    exact ⟨(congrArg (· % 2) (toNat_nnnAddr nnn)).trans ht, List.forall_mem_cons.2 ⟨hp.pc, hp.stack⟩⟩
  | ret a rest hs =>
    have hst := hp.stack
    rw [hs, List.forall_mem_cons] at hst
    exact ⟨hst.1, hst.2⟩
  | registers | cls | drw | ldI | addI | ldF | ldB | storeRegs | loadRegs | ldDtVx | ldStVx | ldVxK | raised =>
    exact hp.of_eq

theorem CycleEffect.pcEven {rnd : Byte} {s s' : State} (hc : CycleEffect rnd s s') (hp : PcEven s)
    (ht : s.run = .running → ∀ i, decode (wordAtPc s) = .ok i → TargetEven s i) : PcEven s' := by
  have henter : PcEven (s.enter rnd) := ⟨even_add_two hp.pc, hp.stack⟩
  cases hc with
  | idle _ h => exact h.pcEven hp
  | keyTaken x _ h => exact h.pcEven hp.of_eq
  | fetchFault _ _ h => exact h.pcEven hp.of_eq
  | unknownOpcode _ _ h => exact h.pcEven henter
  | executed i t hr _ hd he h => exact h.pcEven (he.pcEven henter ((ht hr i hd).of_v_eq rfl))

/-- Settles O59: PC moves by 2, to a return address, or to a target of the instruction at PC. -/
theorem evenTargetsKeepPcEven : Obligations.EvenTargetsKeepPcEven := by
  intro s s' hp ht hstep
  cases effect_of_step hstep with
  | cycle ticks rnd s0 hn h =>
    have hs := hn.sameCore
    refine h.pcEven (hs.pcEven hp) fun hr i hd => ?_
    rw [hs.run] at hr
    rw [hs.wordAtPc_eq] at hd
    exact (ht hr i hd).of_v_eq hn.v_eq
  | reset h => exact h.pcEven pcEven_reset
  | load bytes _ h => exact h.pcEven ⟨pcEven_reset.pc, hp.stack⟩
  | idle h => exact h.pcEven hp

/-! ## Whole-machine rules -/

/-- Settles O49: read off the list of an instruction's effects. -/
theorem whoWritesStackScreenMemory : Obligations.WhoWritesStackScreenMemory := by
  intro i s t h
  cases effect_of_exec h with
  | call nnn => exact ⟨fun _ => .inr ⟨nnn, rfl⟩, by simp, by simp⟩
  | ret => exact ⟨fun _ => .inl rfl, by simp, by simp⟩
  | cls => exact ⟨by simp, fun _ => .inl rfl, by simp⟩
  | drw x y n => exact ⟨by simp, fun _ => .inr ⟨x, y, n, rfl⟩, by simp⟩
  | ldB x => exact ⟨by simp, by simp, fun _ => ⟨x, .inl rfl⟩⟩
  | storeRegs x => exact ⟨by simp, by simp, fun _ => ⟨x, .inr rfl⟩⟩
  | registers | skip | jp | jpV0 | ldI | addI | ldF | loadRegs | ldDtVx | ldStVx | ldVxK | raised => simp

/-- Settles O50: read off the list of an instruction's effects. -/
theorem whoWritesIndexTimersKeys : Obligations.WhoWritesIndexTimersKeys := by
  intro i s t h
  cases effect_of_exec h with
  | ldI nnn => exact ⟨fun _ => .inl ⟨nnn, rfl⟩, by simp⟩
  | addI x => exact ⟨fun _ => .inr ⟨x, .inl rfl⟩, by simp⟩
  | ldF x => exact ⟨fun _ => .inr ⟨x, .inr (.inl rfl)⟩, by simp⟩
  | storeRegs x => exact ⟨fun _ => .inr ⟨x, .inr (.inr (.inl rfl))⟩, by simp⟩
  | loadRegs x => exact ⟨fun _ => .inr ⟨x, .inr (.inr (.inr rfl))⟩, by simp⟩
  | ldDtVx x => exact ⟨by simp, fun _ => ⟨x, rfl⟩, by simp⟩
  | ldStVx x => exact ⟨by simp, by simp, fun _ => ⟨x, rfl⟩, by simp⟩
  | registers | skip | jp | jpV0 | call | ret | cls | drw | ldB | ldVxK | raised => simp

theorem skipIf_setRnd (c : Bool) (s : State) (b : Byte) : skipIf c (s.setRnd b) = (skipIf c s).setRnd b := by
  cases c <;> rfl

theorem drawSprite_setRnd (e : DrawEdge) (x y : Reg) (n : BitVec 4) (s : State) (b : Byte) :
    drawSprite e x y n (s.setRnd b) = (drawSprite e x y n s).setRnd b := by
  simp only [drawSprite, State.setRnd_mem, State.setRnd_i]
  cases spriteRows s.mem s.i n <;> rfl

/-- The outcome with `f` applied to its next state. -/
def mapNext (f : State → State) : Host.Outcome State Fault Refusal → Host.Outcome State Fault Refusal
  | .next s => .next (f s)
  | .fault r => .fault r
  | .refused r => .refused r

/-- The `rnd` of an instruction that is not RND passes through it. -/
theorem exec_setRnd {i : Instr} (s : State) (b : Byte) (hi : ∀ x nn, i ≠ .rndByte x nn) :
    exec i (s.setRnd b) = mapNext (fun t => t.setRnd b) (exec i s) := by
  cases i with
  | rndByte x nn => exact absurd rfl (hi x nn)
  | seByte | sneByte | seReg | sneReg | skp | sknp => exact congrArg Host.Outcome.next (skipIf_setRnd ..)
  | drw => exact congrArg Host.Outcome.next (drawSprite_setRnd ..)
  | ret =>
    simp only [exec, execRet, State.setRnd_stack]
    cases popAddr s.stack <;> rfl
  | call nnn =>
    simp only [exec, execCall, State.setRnd_stack, State.setRnd_pc]
    cases pushAddr s.stack s.pc <;> rfl
  | ldB x =>
    simp only [exec, execLdB, State.setRnd_mem, State.setRnd_i, State.reg_setRnd]
    cases memWrite s.mem s.i (bcdBytes (s.reg x)) <;> rfl
  | storeRegs x =>
    simp only [exec, execStoreRegs, State.setRnd_mem, State.setRnd_i, State.setRnd_v]
    cases memWrite s.mem s.i (blockBytes s.v x) <;> rfl
  | loadRegs x =>
    simp only [exec, execLoadRegs, State.setRnd_mem, State.setRnd_i, State.setRnd_v]
    cases memRead s.mem s.i (blockCount x) <;> rfl
  | _ => rfl

/-- Settles O52: replacing `rnd` before the instruction is replacing it after. -/
theorem onlyRndReadsRnd : Obligations.OnlyRndReadsRnd := by
  intro i s t b hi h
  exact (exec_setRnd s b hi).trans (congrArg _ h)

/-- How an instruction can change the run state. -/
theorem ExecEffect.run_cases {s t : State} {i : Instr} (he : ExecEffect s i t) :
    t.run = s.run ∨ (∃ f, t.run = .halted f) ∨ ∃ x, t.run = .awaitKey x ∧ i = .ldVxK x := by
  cases he with
  | ldVxK x => exact .inr (.inr ⟨x, rfl, rfl⟩)
  | raised => exact .inr (.inl ⟨_, rfl⟩)
  | _ => exact .inl (by simp)

/-- Settles O53: each effect of a Cycle fixes the run state it starts from. -/
theorem runStateChangesOfACycle : Obligations.RunStateChangesOfACycle := by
  intro s s0 s' ticks rnd hn hstep
  have hs := hn.sameCore
  rw [step_of_nextCycle hn] at hstep
  rw [← hs.run, ← hs.wordAtPc_eq]
  cases effect_of_cycle hstep with
  | idle hr h =>
    rw [h.run]
    exact ⟨id, fun _ => id, fun _ => .inl, fun hrun => absurd hrun hr⟩
  | keyTaken x hr h => simp [hr, h.run]
  | fetchFault hr _ h => simp [hr, h.run]
  | unknownOpcode hr _ h => simp [hr, h.run]
  | executed i t hr _ hd he h =>
    refine ⟨by simp [hr], by simp [hr], by simp [hr], fun _ => ?_⟩
    rw [h.run, hd]
    simpa [hr] using he.run_cases

/-! ## Reset and the other transactions -/

theorem resetByte_above_font {a : Nat} (h : 0x050 ≤ a) : resetByte a = 0 := by
  rw [resetByte, if_pos (Nat.zero_le a)]
  exact List.getD_eq_default _ _ h

theorem reset_reg (r : Reg) : State.reset.reg r = 0 := by
  simp [State.reg, State.reset]

theorem reset_keys (k : Reg) : State.reset.keys[k] = false := by
  simp [State.reset]

theorem reset_keysPrev (k : Reg) : State.reset.keysPrev[k] = false := by
  simp [State.reset]

/-- Settles O45: the fields by definition, the two halves of the font by computing them. -/
theorem resetStateIsAsTabled : Obligations.ResetStateIsAsTabled :=
  ⟨reset_reg, rfl, rfl, rfl, rfl, rfl, getPixel_clearScreen, reset_keys, reset_keysPrev, rfl,
    by decide, by decide, fun _ => resetByte_above_font⟩

/-- A step performs the first transaction of the host's list. -/
theorem step_of_host {s : State} {t : Transaction} {rest : List Transaction} (h : s.host = t :: rest) :
    step s = perform t (s.setHost rest) := by
  simp [step, nextTransaction, h]

/-- Settles O46: Reset answers the reset state with the host's list and the count of free inputs. -/
theorem resetRestoresEverything : Obligations.ResetRestoresEverything := by
  intro s rest h
  exact ⟨resetCore (s.setHost rest), step_of_host h, reset_reg, rfl, rfl, rfl, rfl, rfl, fun _ => rfl,
    getPixel_clearScreen, reset_keys, reset_keysPrev, rfl, rfl, rfl⟩

/-- Settles O48: the step performs the named transaction. -/
theorem setKeysReadsAndDestroy : Obligations.SetKeysReadsAndDestroy := by
  intro s rest
  refine ⟨fun _ => step_of_host, step_of_host, fun h => ⟨s.soundActive, step_of_host h, ?_⟩, step_of_host, step_of_host⟩
  simp [State.soundActive]

/-- Settles O58. -/
theorem invariantsHoldAtReset : Obligations.InvariantsHoldAtReset :=
  ⟨good_reset, pcBounded_reset, pcEven_reset⟩

end Sys2Proof.Machine

/-! Proofs of the statements about memory (20_memory.md): bytes written are fetched as a word, and the bytes below ORIGIN are protected. -/

namespace Sys2Proof.Machine

/-! ## A word fetched from a run of writes -/

/-- A checked fetch inside the store reads the word at its address. -/
theorem memFetch_eq_ok {m : Memory} {addr : Addr} (h : addr.toNat + 2 ≤ Config.hw.memSize) :
    memFetch m addr = .ok (m.word addr.toNat) := by
  rcases memFetch_cases m addr with ⟨hpast, -⟩ | ⟨-, e⟩
  · exact absurd h (Nat.not_le_of_lt hpast)
  · exact e

/-- A word as the number its bytes make, in the form the statements use. -/
theorem wordOfBytes_eq_ofNat (hi lo : Byte) : wordOfBytes hi lo = BitVec.ofNat 16 (hi.toNat * 256 + lo.toNat) := by
  rw [← wordOfBytes_toNat, BitVec.ofNat_toNat, BitVec.setWidth_eq]

/-- Two neighbours in a run of writes read as a big-endian word (R44). -/
theorem Memory.word_writeBytes_inside (m : Memory) (a : Nat) (l : List Byte) {k : Nat} (h : k + 1 < l.length) :
    (m.writeBytes a l).word (a + k) = wordOfBytes l[k] l[k + 1] := by
  rw [Memory.word, Nat.add_assoc, Memory.read_writeBytes_inside, Memory.read_writeBytes_inside]

/-- A block store from ORIGIN on that ends inside the store writes the block and advances I. -/
theorem exec_storeRegs_inside {x : Reg} {s : State} (hlow : Config.hw.origin ≤ s.i.toNat)
    (hend : s.i.toNat + (x.val + 1) ≤ Config.hw.memSize) :
    exec (.storeRegs x) s =
      .next ((s.setMem (s.mem.writeBytes s.i.toNat (blockBytes s.v x))).setI (blockEnd s.i x)) := by
  rcases execStoreRegs_cases s x with ⟨t, ht, -⟩ | ⟨-, -, e⟩
  · rw [accessTrap_eq_none.2 ⟨hend, fun _ => hlow⟩] at ht
    cases ht
  · exact e

/-- Settles O30: the fetch reads two neighbours of the block the store wrote. -/
theorem storedBytesAreFetched : Obligations.StoredBytesAreFetched := by
  intro x j k s hlow hend hk hkx
  have hjx : j.val + 1 ≤ x.val := hk ▸ hkx
  have haddr : (BitVec.ofNat 16 (s.i.toNat + j.val)).toNat = s.i.toNat + j.val := by
    rw [BitVec.toNat_ofNat]
    omega
  refine ⟨_, exec_storeRegs_inside hlow hend, ?_⟩
  rw [memFetch_eq_ok (by rw [haddr, hw_memSize]; omega), haddr, State.setI_mem, State.setMem_mem,
    Memory.word_writeBytes_inside _ _ _ (by rw [length_blockBytes]; omega), getElem_blockBytes, getElem_blockBytes]
  simp only [wordOfBytes_eq_ofNat, State.reg, Fin.getElem_fin, hk]

/-! ## The protected bytes below ORIGIN -/

/-- A run of writes from ORIGIN on leaves every byte below ORIGIN. -/
theorem Memory.read_writeBytes_below_origin (m : Memory) {a x : Nat} (l : List Byte) (hx : x < Config.hw.origin)
    (ha : Config.hw.origin ≤ a) : (m.writeBytes a l).read x = m.read x :=
  m.read_writeBytes_outside l (.inl (hx.trans_le ha))

/-- Every instruction leaves every byte below ORIGIN (R54). -/
theorem ExecEffect.read_below_origin {s t : State} {i : Instr} (he : ExecEffect s i t) {a : Nat}
    (ha : a < Config.hw.origin) : t.mem.read a = s.mem.read a := by
  cases he with
  | ldB x _ hlow | storeRegs x _ hlow => exact Memory.read_writeBytes_below_origin _ _ ha hlow
  | registers | skip | jp | jpV0 | call | ret | cls | drw | ldI | addI | ldF | loadRegs | ldDtVx | ldStVx | ldVxK
    | raised => rfl

/-- Every Cycle leaves every byte below ORIGIN. -/
theorem CycleEffect.read_below_origin {rnd : Byte} {s s' : State} (hc : CycleEffect rnd s s') {a : Nat}
    (ha : a < Config.hw.origin) : s'.mem.read a = s.mem.read a := by
  cases hc with
  | idle _ h | keyTaken _ _ h | fetchFault _ _ h | unknownOpcode _ _ h =>
    exact congrArg (Memory.read · a) h.mem
  | executed i t _ _ _ he h => exact (congrArg (Memory.read · a) h.mem).trans (he.read_below_origin ha)

/-- Load, refused or not, leaves every byte below ORIGIN: it writes from ORIGIN on (R155). -/
theorem read_loadProgram_below_origin (bytes : List Byte) (s : State) {a : Nat} (ha : a < Config.hw.origin) :
    (loadProgram bytes s).mem.read a = s.mem.read a := by
  unfold loadProgram
  split
  · rfl
  · exact Memory.read_writeBytes_below_origin _ _ ha le_rfl

/-- Settles O55: Reset restores the store, and whatever else writes it writes from ORIGIN on. -/
theorem bytesBelowOriginAreProtected : Obligations.BytesBelowOriginAreProtected := by
  intro s s' hstep a ha
  rcases step_cases s with ⟨ticks, rnd, s0, hn, e⟩ | ⟨t, rest, hhost, ht, e⟩
  · have hc := effect_of_cycle (e.symm.trans hstep)
    left
    rw [hc.read_below_origin ha, hn.sameCore.mem]
  · have hp := e.symm.trans hstep
    cases t with
    | reset => cases hp; exact .inr ⟨⟨rest, hhost⟩, rfl⟩
    | load bytes => cases hp; exact .inl (read_loadProgram_below_origin bytes _ ha)
    | setKeys | readFramebuffer | readSoundActive | readStatus => cases hp; exact .inl rfl
    | cycle => cases ht
    | destroy => cases hp

end Sys2Proof.Machine

/-! Proofs of the statements about the encoding (30_encoding.md): the outer look-up read once as one case for each high nibble, the inner look-ups once in each direction, and the round trips that follow. -/

namespace Sys2Proof

/-! ## Decoding an encoded instruction -/

/-- Every instruction has its round trip, one law for each. -/
theorem decode_encode : ∀ i : Instr, Laws.RoundTrip.Statement i
  | .cls => Laws.RoundTrip.cls
  | .ret => Laws.RoundTrip.ret
  | .sys nnn => Laws.RoundTrip.sys nnn
  | .jp nnn => Laws.RoundTrip.jp nnn
  | .call nnn => Laws.RoundTrip.call nnn
  | .seByte x nn => Laws.RoundTrip.seByte x nn
  | .sneByte x nn => Laws.RoundTrip.sneByte x nn
  | .seReg x y => Laws.RoundTrip.seReg x y
  | .ldByte x nn => Laws.RoundTrip.ldByte x nn
  | .addByte x nn => Laws.RoundTrip.addByte x nn
  | .ldReg x y => Laws.RoundTrip.ldReg x y
  | .orReg x y => Laws.RoundTrip.orReg x y
  | .andReg x y => Laws.RoundTrip.andReg x y
  | .xorReg x y => Laws.RoundTrip.xorReg x y
  | .addReg x y => Laws.RoundTrip.addReg x y
  | .subReg x y => Laws.RoundTrip.subReg x y
  | .shrReg x y => Laws.RoundTrip.shrReg x y
  | .subnReg x y => Laws.RoundTrip.subnReg x y
  | .shlReg x y => Laws.RoundTrip.shlReg x y
  | .sneReg x y => Laws.RoundTrip.sneReg x y
  | .ldI nnn => Laws.RoundTrip.ldI nnn
  | .jpV0 nnn => Laws.RoundTrip.jpV0 nnn
  | .rndByte x nn => Laws.RoundTrip.rndByte x nn
  | .drw x y n => Laws.RoundTrip.drw x y n
  | .skp x => Laws.RoundTrip.skp x
  | .sknp x => Laws.RoundTrip.sknp x
  | .ldVxDt x => Laws.RoundTrip.ldVxDt x
  | .ldVxK x => Laws.RoundTrip.ldVxK x
  | .ldDtVx x => Laws.RoundTrip.ldDtVx x
  | .ldStVx x => Laws.RoundTrip.ldStVx x
  | .addI x => Laws.RoundTrip.addI x
  | .ldF x => Laws.RoundTrip.ldF x
  | .ldB x => Laws.RoundTrip.ldB x
  | .storeRegs x => Laws.RoundTrip.storeRegs x
  | .loadRegs x => Laws.RoundTrip.loadRegs x

/-- Reading two bytes is decoding the word they make. -/
theorem decodeBytes_cons_cons {hi lo : Byte} {i : Instr} (rest : List Byte)
    (h : decode (wordOfBytes hi lo) = .ok i) : decodeBytes (hi :: lo :: rest) = .ok (i, rest) := by
  simp only [decodeBytes, h]

/-- Settles O1: the two bytes of a word make that word, and each instruction's word decodes to it. -/
theorem decodeEncodeBytesRoundTrip : Obligations.DecodeEncodeBytesRoundTrip := by
  intro i rest hwf
  refine decodeBytes_cons_cons rest ?_
  rw [wordOfBytes_hi_lo]
  exact decode_encode i hwf

/-! ## All that the decoder can answer -/

/-- What the outer look-up can answer for `w`: one constructor for each high nibble (R68). -/
inductive OuterLookup (w : InstrWord) : Except Reject Instr → Prop
  | family0 {r} (hop : opField w = 0x0) (h : decodeFamily0 w = r) : OuterLookup w r
  | jp (hop : opField w = 0x1) : OuterLookup w (.ok (.jp (nnnField w)))
  | call (hop : opField w = 0x2) : OuterLookup w (.ok (.call (nnnField w)))
  | seByte (hop : opField w = 0x3) : OuterLookup w (.ok (.seByte (xField w) (nnField w)))
  | sneByte (hop : opField w = 0x4) : OuterLookup w (.ok (.sneByte (xField w) (nnField w)))
  | family5 {r} (hop : opField w = 0x5) (h : decodeFamily5 w = r) : OuterLookup w r
  | ldByte (hop : opField w = 0x6) : OuterLookup w (.ok (.ldByte (xField w) (nnField w)))
  | addByte (hop : opField w = 0x7) : OuterLookup w (.ok (.addByte (xField w) (nnField w)))
  | family8 {r} (hop : opField w = 0x8) (h : decodeFamily8 w = r) : OuterLookup w r
  | family9 {r} (hop : opField w = 0x9) (h : decodeFamily9 w = r) : OuterLookup w r
  | ldI (hop : opField w = 0xA) : OuterLookup w (.ok (.ldI (nnnField w)))
  | jpV0 (hop : opField w = 0xB) : OuterLookup w (.ok (.jpV0 (nnnField w)))
  | rndByte (hop : opField w = 0xC) : OuterLookup w (.ok (.rndByte (xField w) (nnField w)))
  | drw (hop : opField w = 0xD) : OuterLookup w (.ok (.drw (xField w) (yField w) (nField w)))
  | familyE {r} (hop : opField w = 0xE) (h : decodeFamilyE w = r) : OuterLookup w r
  | familyF {r} (hop : opField w = 0xF) (h : decodeFamilyF w = r) : OuterLookup w r

theorem outerLookup_decode (w : InstrWord) : OuterLookup w (decode w) := by
  have hlt := opField_lt w
  unfold decode
  split
  case h_1 hop => exact .family0 hop rfl
  case h_2 hop => exact .jp hop
  case h_3 hop => exact .call hop
  case h_4 hop => exact .seByte hop
  case h_5 hop => exact .sneByte hop
  case h_6 hop => exact .family5 hop rfl
  case h_7 hop => exact .ldByte hop
  case h_8 hop => exact .addByte hop
  case h_9 hop => exact .family8 hop rfl
  case h_10 hop => exact .family9 hop rfl
  case h_11 hop => exact .ldI hop
  case h_12 hop => exact .jpV0 hop
  case h_13 hop => exact .rndByte hop
  case h_14 hop => exact .drw hop
  case h_15 hop => exact .familyE hop rfl
  case h_16 =>
    have hop : opField w = 0xF := by grind
    exact .familyF hop rfl

/-! ## A decoded instruction has the word it was decoded from -/

section

variable {w : InstrWord} {op : Nat}

theorem wordNNN_of_fields (hop : opField w = op) : wordNNN op (nnnField w) = w :=
  hop ▸ wordNNN_fields w

theorem wordXNN_of_fields {nn : Byte} (hop : opField w = op) (hnn : nnField w = nn) :
    wordXNN op (xField w) nn = w :=
  hop ▸ hnn ▸ wordXNN_fields w

theorem wordXYN_of_fields {n : BitVec 4} (hop : opField w = op) (hn : nField w = n) :
    wordXYN op (xField w) (yField w) n = w :=
  hop ▸ hn ▸ wordXYN_fields w

end

/-- `i` is a well-formed instruction whose word is `w`. -/
def IsEncodedBy (i : Instr) (w : InstrWord) : Prop := i.wf = true ∧ encode i = w

section

variable {w : InstrWord} {i : Instr}

/-- One line of an inner look-up answers its instruction, or leaves the answer to the lines after it. -/
theorem ok_of_ite_ok {c : Prop} [Decidable c] {j : Instr} {r : Except Reject Instr}
    (h : (if c then .ok j else r) = .ok i) : (c ∧ j = i) ∨ r = .ok i := by
  split at h
  case isTrue hc => exact .inl ⟨hc, Except.ok.inj h⟩
  case isFalse => exact .inr h

/-- SYS is left with a word that is neither CLS nor RET, so its NNN is neither of theirs (R69). -/
theorem isEncodedBy_of_decodeFamily0 (hop : opField w = 0x0) (h : decodeFamily0 w = .ok i) : IsEncodedBy i w := by
  have hw := wordNNN_of_fields hop
  unfold decodeFamily0 at h
  split_ifs at h with hcls hret <;> cases h
  · exact ⟨rfl, hcls.symm⟩
  · exact ⟨rfl, hret.symm⟩
  · have hne0 : nnnField w ≠ 0x0E0 := fun e => hcls (by rw [← hw, e]; rfl)
    have hneE : nnnField w ≠ 0x0EE := fun e => hret (by rw [← hw, e]; rfl)
    exact ⟨by simp only [Instr.wf, bne_iff_ne, Bool.and_eq_true]; exact ⟨hne0, hneE⟩, hw⟩

theorem isEncodedBy_of_decodeFamily5 (hop : opField w = 0x5) (h : decodeFamily5 w = .ok i) : IsEncodedBy i w := by
  unfold decodeFamily5 at h
  split_ifs at h with hn
  cases h
  exact ⟨rfl, wordXYN_of_fields hop hn⟩

theorem isEncodedBy_of_decodeFamily8 (hop : opField w = 0x8) (h : decodeFamily8 w = .ok i) : IsEncodedBy i w := by
  unfold decodeFamily8 at h
  split at h <;> cases h
  all_goals exact ⟨rfl, wordXYN_of_fields hop (BitVec.eq_of_toNat_eq ‹_›)⟩

theorem isEncodedBy_of_decodeFamily9 (hop : opField w = 0x9) (h : decodeFamily9 w = .ok i) : IsEncodedBy i w := by
  unfold decodeFamily9 at h
  split_ifs at h with hn
  cases h
  exact ⟨rfl, wordXYN_of_fields hop hn⟩

theorem isEncodedBy_of_decodeFamilyE (hop : opField w = 0xE) (h : decodeFamilyE w = .ok i) : IsEncodedBy i w := by
  unfold decodeFamilyE at h
  iterate 2
    rcases ok_of_ite_ok h with ⟨hnn, rfl⟩ | h
    · exact ⟨rfl, wordXNN_of_fields hop hnn⟩
  cases h

theorem isEncodedBy_of_decodeFamilyF (hop : opField w = 0xF) (h : decodeFamilyF w = .ok i) : IsEncodedBy i w := by
  unfold decodeFamilyF at h
  iterate 9
    rcases ok_of_ite_ok h with ⟨hnn, rfl⟩ | h
    · exact ⟨rfl, wordXNN_of_fields hop hnn⟩
  cases h

end

/-- Settles O2: in each case of the outer look-up the word is rebuilt from the fields that the decoder read. -/
theorem decodedWordIsEncoding : Obligations.DecodedWordIsEncoding := by
  intro w i h
  have hl : OuterLookup w (.ok i) := h ▸ outerLookup_decode w
  cases hl with
  | family0 hop h => exact isEncodedBy_of_decodeFamily0 hop h
  | family5 hop h => exact isEncodedBy_of_decodeFamily5 hop h
  | family8 hop h => exact isEncodedBy_of_decodeFamily8 hop h
  | family9 hop h => exact isEncodedBy_of_decodeFamily9 hop h
  | familyE hop h => exact isEncodedBy_of_decodeFamilyE hop h
  | familyF hop h => exact isEncodedBy_of_decodeFamilyF hop h
  | jp hop | call hop | ldI hop | jpV0 hop => exact ⟨rfl, wordNNN_of_fields hop⟩
  | seByte hop | sneByte hop | ldByte hop | addByte hop | rndByte hop => exact ⟨rfl, wordXNN_of_fields hop rfl⟩
  | drw hop => exact ⟨rfl, wordXYN_of_fields hop rfl⟩

/-! ## The words that decode to no instruction -/

theorem div_eq_opField (w : InstrWord) : w.toNat / 0x1000 = opField w := rfl

theorem nField_eq_iff (w : InstrWord) (n : BitVec 4) : nField w = n ↔ w.toNat % 0x10 = n.toNat := by
  rw [← BitVec.toNat_inj, nField, BitVec.toNat_ofNat]

theorem nnField_eq_iff (w : InstrWord) (nn : Byte) : nnField w = nn ↔ w.toNat % 0x100 = nn.toNat := by
  rw [← BitVec.toNat_inj, nnField, BitVec.toNat_ofNat]

theorem decodeFamily0_ne_error (w : InstrWord) (e : Reject) : decodeFamily0 w ≠ .error e := by
  unfold decodeFamily0
  split_ifs <;> exact nofun

/-- One line of an inner look-up refuses exactly when its test fails and the lines after it refuse. -/
theorem ite_ok_error_iff (c : Prop) [Decidable c] (i : Instr) (r : Except Reject Instr) :
    (∃ e, (if c then .ok i else r) = .error e) ↔ ¬c ∧ ∃ e, r = .error e := by
  split
  case isTrue hc => exact ⟨nofun, fun ⟨hnc, _⟩ => absurd hc hnc⟩
  case isFalse hc => exact (and_iff_right hc).symm

theorem decodeFamily5_error_iff (w : InstrWord) : (∃ e, decodeFamily5 w = .error e) ↔ w.toNat % 0x10 ≠ 0 := by
  simp [decodeFamily5, ite_ok_error_iff, nField_eq_iff]

theorem decodeFamily9_error_iff (w : InstrWord) : (∃ e, decodeFamily9 w = .error e) ↔ w.toNat % 0x10 ≠ 0 := by
  simp [decodeFamily9, ite_ok_error_iff, nField_eq_iff]

theorem decodeFamilyE_error_iff (w : InstrWord) :
    (∃ e, decodeFamilyE w = .error e) ↔ w.toNat % 0x100 ∉ [0x9E, 0xA1] := by
  simp [decodeFamilyE, ite_ok_error_iff, nnField_eq_iff]

theorem decodeFamilyF_error_iff (w : InstrWord) :
    (∃ e, decodeFamilyF w = .error e) ↔
      w.toNat % 0x100 ∉ [0x07, 0x0A, 0x15, 0x18, 0x1E, 0x29, 0x33, 0x55, 0x65] := by
  simp [decodeFamilyF, ite_ok_error_iff, nnField_eq_iff]

/-- One case for each N that the inner look-up is given (R71). -/
theorem decodeFamily8_error_iff (w : InstrWord) :
    (∃ e, decodeFamily8 w = .error e) ↔ w.toNat % 0x10 ∈ [0x8, 0x9, 0xA, 0xB, 0xC, 0xD, 0xF] := by
  have hlt : w.toNat % 0x10 < 0x10 := Nat.mod_lt _ (by decide)
  have hn : (nField w).toNat = w.toNat % 0x10 := BitVec.toNat_ofNat ..
  rw [decodeFamily8, hn]
  interval_cases w.toNat % 0x10 <;> simp

/-- Settles O3: each case of the outer look-up fixes the high nibble, and only an inner look-up refuses a word. -/
theorem unknownOpcodesAreTheListedForms : Obligations.UnknownOpcodesAreTheListedForms := by
  intro w
  have hl := outerLookup_decode w
  generalize decode w = r at hl
  simp only [div_eq_opField]
  cases hl with
  | family0 hop h => simp [hop, ← h, decodeFamily0_ne_error]
  | family5 hop h => simp [hop, ← h, decodeFamily5_error_iff]
  | family8 hop h => simp [hop, ← h, decodeFamily8_error_iff]
  | family9 hop h => simp [hop, ← h, decodeFamily9_error_iff]
  | familyE hop h => simp [hop, ← h, decodeFamilyE_error_iff]
  | familyF hop h => simp [hop, ← h, decodeFamilyF_error_iff]
  | jp hop | call hop | ldI hop | jpV0 hop => simp [hop]
  | seByte hop | sneByte hop | ldByte hop | addByte hop | rndByte hop | drw hop => simp [hop]

/-! ## Words of the spec -/

/-- Settles O4, each word decoded by computing it. -/
theorem sampleWordsDecode : Obligations.SampleWordsDecode := by
  unfold Obligations.SampleWordsDecode
  decide

end Sys2Proof

/-! Proofs of the statements about the cycle (40_cycle.md): the one case of a step that each premise leaves, and the statements read off that case. -/

namespace Sys2Proof.Machine

section

variable {s s0 : State} {ticks : Nat} {rnd : Byte}

/-! ## The step when the next transaction is a Cycle -/

/-- The statements' end of a cycle is the model's. -/
theorem finishCycle_eq_finished (ticks : Nat) (l : List Event) (s : State) :
    finishCycle ticks l s = Finished s ticks l := rfl

@[simp] theorem reg_finished (s : State) (ticks : Nat) (l : List Event) (r : Reg) :
    (Finished s ticks l).reg r = s.reg r := rfl

@[simp] theorem toNat_dt_finished (s : State) (ticks : Nat) (l : List Event) :
    (Finished s ticks l).dt.toNat = s.dt.toNat - ticks := tickDown_toNat ticks s.dt

@[simp] theorem toNat_st_finished (s : State) (ticks : Nat) (l : List Event) :
    (Finished s ticks l).st.toNat = s.st.toNat - ticks := tickDown_toNat ticks s.st

theorem NextCycle.reg_eq (hn : NextCycle s ticks rnd s0) (r : Reg) : s0.reg r = s.reg r := by
  rw [State.reg, State.reg, hn.v_eq]

theorem NextCycle.newKey_eq (hn : NextCycle s ticks rnd s0) : s0.newKey = s.newKey := by
  rw [hn.start_eq]
  rfl

/-- A handler starts past the instruction that the step fetches (R80). -/
theorem NextCycle.enter_eq (hn : NextCycle s ticks rnd s0) :
    s0.enter rnd = { s0 with pc := s.pc + 2, rnd := rnd } := by
  rw [← hn.sameCore.pc]
  rfl

theorem NextCycle.step_idle (hn : NextCycle s ticks rnd s0) (hr : s.run = .unloaded ∨ ∃ f, s.run = .halted f) :
    step s = .next (endQuietly s0) := by
  rw [step_of_nextCycle hn]
  rw [← hn.sameCore.run] at hr
  rcases hr with hr | ⟨f, hr⟩
  · exact cycle_unloaded ticks rnd hr
  · exact cycle_halted ticks rnd hr

theorem NextCycle.step_awaitKey (hn : NextCycle s ticks rnd s0) {x : Reg} (hr : s.run = .awaitKey x) :
    step s = .next (Finished (takeKey x s0) ticks []) := by
  rw [step_of_nextCycle hn, cycle_awaitKey ticks rnd (hn.sameCore.run.trans hr), finishCycle_eq_finished]

theorem NextCycle.step_running (hn : NextCycle s ticks rnd s0) (hr : s.run = .running) :
    step s = runningCycle ticks rnd s0 := by
  rw [step_of_nextCycle hn, cycle_running ticks rnd (hn.sameCore.run.trans hr)]

/-! ## Each case of a running cycle, from its premise -/

theorem runningCycle_of_fetch_outside (h : Config.hw.memSize < s.pc.toNat + 2) :
    runningCycle ticks rnd s =
      .next (endQuietly (s.halt s.pc ⟨.memoryOutOfBounds, some ⟨s.pc, 2, .fetch⟩⟩)) := by
  rcases runningCycle_cases ticks rnd s with ⟨-, e⟩ | ⟨hpc, -⟩ | ⟨hpc, -⟩
  · exact e
  · exact absurd h (Nat.not_lt_of_le hpc)
  · exact absurd h (Nat.not_lt_of_le hpc)

theorem runningCycle_of_decode_error (hpc : s.pc.toNat + 2 ≤ Config.hw.memSize) {r : Reject}
    (hd : decode (wordAtPc s) = .error r) :
    runningCycle ticks rnd s = .next (finishCycle ticks [.unknownOpcode s.pc (wordAtPc s)] (s.enter rnd)) := by
  rw [wordAtPc_eq_word] at hd ⊢
  rw [runningCycle, memFetch_eq_ok hpc]
  simp only [hd]

theorem runningCycle_of_decode_ok (hpc : s.pc.toNat + 2 ≤ Config.hw.memSize) {i : Instr}
    (hd : decode (wordAtPc s) = .ok i) : runningCycle ticks rnd s = executeCycle ticks rnd i s := by
  rw [wordAtPc_eq_word] at hd
  rw [runningCycle, memFetch_eq_ok hpc]
  simp only [hd]

theorem afterExecute_of_halted {f : FaultRecord} (h : s.run = .halted f) : afterExecute ticks s = endQuietly s := by
  rw [afterExecute, h]

theorem afterExecute_of_not_halted (h : ¬∃ f, s.run = .halted f) : afterExecute ticks s = finishCycle ticks [] s := by
  unfold afterExecute
  split
  case h_1 f hf => exact absurd ⟨f, hf⟩ h
  case h_2 => rfl

/-! ## The key wait (R86, R87) -/

theorem toNat_keyByte (k : Reg) : (keyByte k).toNat = k.val := by
  rw [keyByte, BitVec.toNat_ofNat]
  omega

theorem newlyPressed_eq_true_iff (k : Reg) : s.newlyPressed k = true ↔ s.keys[k] = true ∧ s.keysPrev[k] = false := by
  simp [State.newlyPressed]

/-- The least newly pressed key is the new key. -/
theorem newKey_eq_some_of_least {k : Reg} (hk : s.newlyPressed k = true)
    (hlt : ∀ j < k, ¬s.newlyPressed j = true) : s.newKey = some k := by
  cases h : s.newKey with
  | none =>
    obtain ⟨hkey, hprev⟩ := (newlyPressed_eq_true_iff k).1 hk
    have hheld := newKey_eq_none.1 h k hkey
    rw [hprev] at hheld
    cases hheld
  | some j =>
    obtain ⟨hj, hltj⟩ := newKey_eq_some h
    rcases lt_trichotomy j k with hjk | rfl | hkj
    · exact absurd hj (hlt j hjk)
    · rfl
    · rw [hltj k hkj] at hk
      cases hk

theorem takeKey_of_newKey_eq_some (x : Reg) {k : Reg} (h : s.newKey = some k) :
    takeKey x s = (s.setReg x (keyByte k)).setRun .running := by
  rw [takeKey, h]

theorem takeKey_of_newKey_eq_none (x : Reg) (h : s.newKey = none) : takeKey x s = s := by
  rw [takeKey, h]

/-- After a cycle no key counts as new until the host sets keys. -/
theorem noNewKey_finished (s : State) (ticks : Nat) (l : List Event) : NoNewKey (Finished s ticks l) := fun _ => id

end

/-- Settles O37: the wait takes the least new key, which is the given one. -/
theorem waitEndsOnLeastNewKey : Obligations.WaitEndsOnLeastNewKey := by
  intro s s0 ticks rnd x k hn hr hkey hprev hleast
  have hnew : s.newKey = some k :=
    newKey_eq_some_of_least ((newlyPressed_eq_true_iff k).2 ⟨hkey, hprev⟩) fun j hj hp =>
      hleast j hj ((newlyPressed_eq_true_iff j).1 hp)
  have hstep := hn.step_awaitKey hr
  rw [takeKey_of_newKey_eq_some x (hn.newKey_eq.trans hnew)] at hstep
  refine ⟨_, hstep, ?_, fun r hrx => ?_, rfl⟩
  · simp [toNat_keyByte]
  · simp [hrx, hn.reg_eq]

/-- Settles O38: without a new key the wait takes none, and the end of the cycle is all. -/
theorem waitGoesOnWithoutNewKey : Obligations.WaitGoesOnWithoutNewKey := by
  intro s s0 ticks rnd x hn hr hno
  rw [hn.step_awaitKey hr, takeKey_of_newKey_eq_none x (hn.newKey_eq.trans (newKey_eq_none.2 hno))]

/-- A run goes on from the state that its first step answers. -/
theorem run_succ_of_step {s t : State} (n : Nat) (h : step s = .next t) :
    Host.Core.run Sys2Proof.core (n + 1) s = Host.Core.run Sys2Proof.core n t := by
  have hcore : Sys2Proof.core.step s = .next t := h
  simp only [Host.Core.run, hcore]

/-- Settles O39, by induction on the list of Cycles: each is a waiting cycle without a new key, after which KeysPrev is Keys. -/
theorem waitLastsWhileNoKeyComes : Obligations.WaitLastsWhileNoKeyComes := by
  intro l
  induction l with
  | nil => exact fun s x hr _ _ => ⟨s, rfl, hr, rfl, rfl, rfl, rfl, rfl, rfl, rfl, rfl⟩
  | cons c l ih =>
    intro s x hr hno hhost
    have hn : NextCycle s c.1 c.2 (s.setHost _) := .inl ⟨_, hhost, rfl⟩
    have hstep := waitGoesOnWithoutNewKey _ _ _ _ x hn hr hno
    obtain ⟨t, hrun, htr, hpc, hv, hi, hstack, hmem, hfb, hdt, hst⟩ :=
      ih (Finished (s.setHost (l.map fun c => .cycle c.1 c.2)) c.1 []) x hr (noNewKey_finished _ _ _) rfl
    refine ⟨t, (run_succ_of_step _ hstep).trans hrun, htr, hpc, hv, hi, hstack, hmem, hfb, ?_, ?_⟩
    · simp [hdt, Nat.sub_sub]
    · simp [hst, Nat.sub_sub]

/-! ## The running cycle (R79 to R84) and the idle one (R90) -/

/-- Settles O41: the case of a running cycle whose word does not decode. -/
theorem unknownOpcodeIsReportedNoOp : Obligations.UnknownOpcodeIsReportedNoOp := by
  intro s s0 ticks rnd hn hr hpc ⟨e, hd⟩
  have hs := hn.sameCore
  rw [← hs.wordAtPc_eq] at hd ⊢
  rw [← hs.pc] at hpc
  rw [hn.step_running hr, runningCycle_of_decode_error hpc hd, hn.enter_eq, finishCycle_eq_finished, hs.pc]

/-- Settles O42: the case of a running cycle whose fetch ends past the store. -/
theorem fetchPastStoreHalts : Obligations.FetchPastStoreHalts := by
  intro s s0 ticks rnd hn hr hpc
  rw [← hn.sameCore.pc] at hpc ⊢
  rw [hn.step_running hr, runningCycle_of_fetch_outside hpc]
  rfl

/-- The step of a running core that decodes `i`, given what its handler answers. -/
theorem NextCycle.step_decoded {s s0 t : State} {ticks : Nat} {rnd : Byte} {i : Instr}
    (hn : NextCycle s ticks rnd s0) (hr : s.run = .running) (hpc : s.pc.toNat + 2 ≤ Config.hw.memSize)
    (hd : decode (wordAtPc s) = .ok i) (ht : exec i (s0.enter rnd) = .next t) :
    step s = .next (afterExecute ticks t) := by
  have hs := hn.sameCore
  rw [← hs.wordAtPc_eq] at hd
  rw [← hs.pc] at hpc
  rw [hn.step_running hr, runningCycle_of_decode_ok hpc hd, executeCycle_next ht]

/-- Settles O40: what the handler answers decides between the two ends of the cycle. -/
theorem stepRunsDecodedInstruction : Obligations.StepRunsDecodedInstruction := by
  intro s s0 t ticks rnd i hn hr hpc hd ht
  rw [← hn.enter_eq] at ht
  rw [hn.step_decoded hr hpc hd ht]
  constructor
  · rintro ⟨f, hf⟩
    rw [afterExecute_of_halted hf]
    rfl
  · intro hf
    rw [afterExecute_of_not_halted hf, finishCycle_eq_finished]

/-- An instruction that halts a running core raises a consistent fault and does nothing else (R84). -/
theorem ExecEffect.eq_halted_of_run_halted {s t : State} {i : Instr} {f : FaultRecord} (he : ExecEffect s i t)
    (hr : s.run = .running) (hf : t.run = .halted f) :
    t = { s with run := .halted f } ∧ f.instrAddr = s.instrAddr ∧ f.Consistent := by
  cases he with
  | raised _ trap _ hcons =>
    cases hf
    exact ⟨rfl, rfl, hcons s.instrAddr⟩
  | ldVxK => cases hf
  | _ =>
    have h : s.run = .halted f := hf
    rw [hr] at h
    cases h

theorem instrAddr_enter (s : State) (rnd : Byte) : (s.enter rnd).instrAddr = s.pc :=
  BitVec.add_sub_cancel s.pc 2

/-- Settles O43: an unknown opcode leaves the core running, so an instruction ran, and it halts by raising only. -/
theorem faultingInstructionTakesNoEffect : Obligations.FaultingInstructionTakesNoEffect := by
  intro s s0 s' ticks rnd f hn hr hpc hstep hf
  cases hd : decode (wordAtPc s) with
  | error e =>
    have hnoop := unknownOpcodeIsReportedNoOp s s0 ticks rnd hn hr hpc ⟨e, hd⟩
    cases hnoop.symm.trans hstep
    cases (hn.sameCore.run.trans hr).symm.trans hf
  | ok i =>
    obtain ⟨t, ht, he⟩ := exec_effect i (s0.enter rnd)
    cases (hn.step_decoded hr hpc hd ht).symm.trans hstep
    have htf : t.run = .halted f := (sameCore_afterExecute ticks t).run.symm.trans hf
    obtain ⟨heq, haddr, hcons⟩ := he.eq_halted_of_run_halted (hn.sameCore.run.trans hr) htf
    refine ⟨haddr.trans ((instrAddr_enter s0 rnd).trans hn.sameCore.pc), hcons, ?_⟩
    rw [afterExecute_of_halted htf, heq, hn.enter_eq]
    rfl

/-- Settles O44: the two idle run states of a Cycle. -/
theorem idleCycleChangesNothing : Obligations.IdleCycleChangesNothing :=
  fun _ _ _ _ hn hr => hn.step_idle hr

/-! ## Halted (R85, R143) -/

/-- Load, refused or not, leaves a halted core halted with its record (R155). -/
theorem run_loadProgram_of_halted (bytes : List Byte) {s : State} {f : FaultRecord} (h : s.run = .halted f) :
    (loadProgram bytes s).run = .halted f := by
  unfold loadProgram
  split
  · exact h
  · exact congrArg runAfterLoad h

/-- Settles O54: a Cycle of a halted core is idle, and of the other transactions only Load and Reset write the run state. -/
theorem haltedUntilReset : Obligations.HaltedUntilReset := by
  intro s s' f hf hstep
  rcases step_cases s with ⟨ticks, rnd, s0, hn, -⟩ | ⟨t, rest, hhost, ht, e⟩
  · cases (hn.step_idle (.inr ⟨f, hf⟩)).symm.trans hstep
    exact .inl (hn.sameCore.run.trans hf)
  · have hp := e.symm.trans hstep
    cases t with
    | reset => exact .inr ⟨rest, hhost⟩
    | load bytes => cases hp; exact .inl (run_loadProgram_of_halted bytes hf)
    | setKeys | readFramebuffer | readSoundActive | readStatus => cases hp; exact .inl hf
    | cycle => cases ht
    | destroy => cases hp

end Sys2Proof.Machine

/-! Proofs of the statements about control transfer and skips (41_control_flow.md): the word of an instruction in each format, what raising a fault and skipping come to in the terms of the statements, and the statements read off the handlers. -/

namespace Sys2Proof.Machine

/-! ## The words of an instruction, by its format (R64, R67) -/

/-- A well-formed instruction has the word that the encoder gives it. -/
theorem isWordOf_toNat_encode {i : Instr} (hwf : i.wf = true) : IsWordOf (encode i).toNat i := by
  refine ⟨(encode i).isLt, ?_⟩
  rw [BitVec.ofNat_toNat, BitVec.setWidth_eq]
  exact decode_encode i hwf

section

variable {i : Instr} {op w : Nat} {x y : Reg}

theorem isWordOf_of_encode_eq_wordNNN {nnn : BitVec 12} (he : encode i = wordNNN op nnn) (hwf : i.wf = true)
    (hop : op < 16) (hw : w = op * 0x1000 + nnn.toNat) : IsWordOf w i := by
  rw [hw, ← wordNNN_toNat hop, ← he]
  exact isWordOf_toNat_encode hwf

theorem isWordOf_of_encode_eq_wordXNN {nn : Byte} (he : encode i = wordXNN op x nn) (hwf : i.wf = true)
    (hop : op < 16) (hw : w = op * 0x1000 + x.val * 0x100 + nn.toNat) : IsWordOf w i := by
  rw [hw, ← wordXNN_toNat hop, ← he]
  exact isWordOf_toNat_encode hwf

theorem isWordOf_of_encode_eq_wordXYN {n : BitVec 4} (he : encode i = wordXYN op x y n) (hwf : i.wf = true)
    (hop : op < 16) (hw : w = op * 0x1000 + x.val * 0x100 + y.val * 0x10 + n.toNat) : IsWordOf w i := by
  rw [hw, ← wordXYN_toNat hop, ← he]
  exact isWordOf_toNat_encode hwf

/-- In families 5 and 9 a word whose N is not 0 is an unknown opcode, so it is no instruction's word (R74). -/
theorem not_isWordOf_of_family5_or_9 (hop : w / 0x1000 = 0x5 ∨ w / 0x1000 = 0x9) (hn : w % 0x10 ≠ 0) :
    ¬IsWordOf w i := by
  rintro ⟨hlt, hd⟩
  have hw : (BitVec.ofNat 16 w).toNat = w := by rw [BitVec.toNat_ofNat, Nat.mod_eq_of_lt hlt]
  obtain ⟨e, he⟩ := (unknownOpcodesAreTheListedForms (BitVec.ofNat 16 w)).2 (by
    rw [hw]
    exact hop.elim (fun h => .inl ⟨h, hn⟩) fun h => .inr (.inr (.inl ⟨h, hn⟩)))
  cases he.symm.trans hd

end

/-! ## Faults, skips and targets in the terms of the statements -/

section

variable {s : State}

/-- A handler's fault is recorded at the address its instruction was fetched from (R80, R84). -/
theorem raise_eq_haltedAt {a : Addr} (t : Trap) (hpc : s.pc = a + 2) :
    s.raise t = HaltedAt s a t.reason t.access := by
  have ha : s.instrAddr = a := by rw [State.instrAddr, hpc, BitVec.add_sub_cancel]
  rw [State.raise, ha]
  rfl

/-- The skip rule under a test that decides the statement's condition (R98). -/
theorem skipIf_eq_skipped {c : Bool} {p : Prop} [Decidable p] (h : c = true ↔ p) : skipIf c s = Skipped p s := by
  rw [skipIf_eq, Skipped, if_congr h rfl rfl]
  rfl

theorem nnnAddr_eq_ofNat (nnn : BitVec 12) : nnnAddr nnn = BitVec.ofNat 16 nnn.toNat :=
  (BitVec.ofNat_toNat 16 nnn).symm

theorem nnnAddr_add_byteAddr_eq_ofNat (nnn : BitVec 12) (b : Byte) :
    nnnAddr nnn + byteAddr b = BitVec.ofNat 16 (nnn.toNat + b.toNat) := by
  rw [← toNat_nnnAddr_add_byteAddr, BitVec.ofNat_toNat, BitVec.setWidth_eq]

theorem key_lowNibble {x k : Reg} (h : k.val = (s.reg x).toNat % 16) : s.key (lowNibble (s.reg x)) = s.keys[k] := by
  have hk : lowNibble (s.reg x) = k := Fin.ext h.symm
  rw [State.key, hk]

end

/-! ## SYS, jumps, calls and returns -/

/-- Settles O5: the handler's answer is the state it is given, and the cycle of a decoded instruction ends on it. -/
theorem sysDoesNothing : Obligations.SysDoesNothing := by
  intro nnn s
  refine ⟨fun hcls hret => ?_, rfl, fun ticks rnd hr hpc hd => ?_⟩
  · have hwf : (Instr.sys nnn).wf = true := Bool.and_eq_true_iff.2 ⟨bne_iff_ne.2 hcls, bne_iff_ne.2 hret⟩
    exact isWordOf_of_encode_eq_wordNNN rfl hwf (by decide) (by omega)
  · have hexec : exec (.sys nnn) (s.enter rnd) = .next (s.enter rnd) := rfl
    have hrun : ¬∃ f, (s.enter rnd).run = .halted f := by simp [hr]
    rw [cycle_running ticks rnd hr, runningCycle_of_decode_ok hpc hd, executeCycle_next hexec,
      afterExecute_of_not_halted hrun]
    rfl

/-- Settles O6: the two cases of RET, told apart by the stack. -/
theorem retPopsPc : Obligations.RetPopsPc := by
  refine ⟨isWordOf_toNat_encode (i := .ret) rfl, fun s r rest hs => ?_, fun s a hs hpc => ?_⟩
  · rcases execRet_cases s with ⟨hempty, -⟩ | ⟨a, l, hl, e⟩
    · cases hs.symm.trans hempty
    · cases hs.symm.trans hl
      exact e
  · rcases execRet_cases s with ⟨-, e⟩ | ⟨a, l, hl, -⟩
    · exact e.trans (congrArg _ (raise_eq_haltedAt _ hpc))
    · cases hs.symm.trans hl

/-- Settles O7: the target is NNN as an address. -/
theorem jpSetsPc : Obligations.JpSetsPc := by
  intro nnn s
  refine ⟨isWordOf_of_encode_eq_wordNNN rfl rfl (by decide) rfl, ?_⟩
  rw [← nnnAddr_eq_ofNat]
  rfl

/-- Settles O8: the two cases of CALL, told apart by the length of the stack. -/
theorem callPushesPc : Obligations.CallPushesPc := by
  intro nnn s
  refine ⟨isWordOf_of_encode_eq_wordNNN rfl rfl (by decide) rfl, fun hlen => ?_, fun a hlen hpc => ?_⟩
  · rcases execCall_cases s nnn with ⟨hfull, -⟩ | ⟨-, e⟩
    · exact absurd hlen (Nat.not_lt_of_le hfull)
    · rw [← nnnAddr_eq_ofNat]
      exact e
  · rcases execCall_cases s nnn with ⟨-, e⟩ | ⟨hroom, -⟩
    · exact e.trans (congrArg _ (raise_eq_haltedAt _ hpc))
    · exact absurd hlen (Nat.ne_of_lt hroom)

/-- Settles O9: both modes use one sum, which does not reach 2^16. -/
theorem jpV0AddsV0 : Obligations.JpV0AddsV0 := by
  intro nnn s
  have hlt : nnn.toNat + (s.reg 0).toNat < 0x10000 := by omega
  rw [Nat.mod_eq_of_lt hlt, ← nnnAddr_add_byteAddr_eq_ofNat]
  exact ⟨isWordOf_of_encode_eq_wordNNN rfl rfl (by decide) rfl, rfl, rfl, rfl⟩

/-! ## Skips -/

/-- Settles O10: the tests of the two skips on a byte decide their comparisons. -/
theorem byteSkipsCompare : Obligations.ByteSkipsCompare := by
  intro x nn s
  refine ⟨isWordOf_of_encode_eq_wordXNN rfl rfl (by decide) (by omega),
    isWordOf_of_encode_eq_wordXNN rfl rfl (by decide) (by omega), ?_, ?_⟩
  · exact congrArg _ (skipIf_eq_skipped beq_iff_eq)
  · exact congrArg _ (skipIf_eq_skipped bne_iff_ne)

/-- Settles O11: the tests of the two skips on registers decide their comparisons, and with N not 0 the word is unknown. -/
theorem registerSkipsCompare : Obligations.RegisterSkipsCompare := by
  intro x y s
  refine ⟨isWordOf_of_encode_eq_wordXYN rfl rfl (by decide) (by bv_omega),
    isWordOf_of_encode_eq_wordXYN rfl rfl (by decide) (by bv_omega), fun n hpos hlt i => ⟨?_, ?_⟩, ?_, ?_⟩
  · exact not_isWordOf_of_family5_or_9 (.inl (by omega)) (by omega)
  · exact not_isWordOf_of_family5_or_9 (.inr (by omega)) (by omega)
  · exact congrArg _ (skipIf_eq_skipped beq_iff_eq)
  · exact congrArg _ (skipIf_eq_skipped bne_iff_ne)

/-- Settles O12: the low nibble of VX is the key's index, and the two skips test the key's flag with either polarity. -/
theorem keySkipsTestKey : Obligations.KeySkipsTestKey := by
  intro x k s hk
  have hkey := key_lowNibble hk
  refine ⟨isWordOf_of_encode_eq_wordXNN rfl rfl (by decide) (by bv_omega),
    isWordOf_of_encode_eq_wordXNN rfl rfl (by decide) (by bv_omega), ?_, ?_⟩
  · exact congrArg _ (skipIf_eq_skipped (by rw [hkey]))
  · exact congrArg _ (skipIf_eq_skipped (by rw [hkey, Bool.not_eq_true']))

end Sys2Proof.Machine

/-! Proofs of the statements about register arithmetic, logic, shifts and random (42_alu.md): the two ways a handler writes its result, the results and flags as numbers, and the statements read off the handlers. -/

namespace Sys2Proof.Machine

/-! ## The two ways to write a result (R106) -/

section

variable {s : State} {i : Instr} {x : Reg} {b f : Byte} {result flag : Nat}

/-- A handler that writes one register writes its result and nothing else. -/
theorem exists_onlyResult_of_setReg (he : exec i s = .next (s.setReg x b)) (hb : b.toNat = result) :
    ∃ t, exec i s = .next t ∧ OnlyResult s t x result := by
  refine ⟨_, he, ?_, fun r hr => ?_, rfl⟩
  · rw [State.reg_setReg, if_pos rfl, hb]
  · rw [State.reg_setReg, if_neg hr]

/-- A handler that writes a register and then VF leaves the flag in VF, the result in another VX, and the rest alone. -/
theorem exists_resultAndFlag_of_setRegFlag (he : exec i s = .next (s.setRegFlag x b f)) (hb : b.toNat = result)
    (hf : f.toNat = flag) : ∃ t, exec i s = .next t ∧ ResultAndFlag s t x result flag := by
  refine ⟨_, he, fun hx => ?_, ?_, fun r hr hrf => ?_, rfl⟩
  · rw [State.reg_setRegFlag, if_neg hx, if_pos rfl, hb]
  · rw [State.reg_setRegFlag, if_pos rfl, hf]
  · rw [State.reg_setRegFlag, if_neg hrf, if_neg hr]

end

/-! ## Results and flags as numbers (R21) -/

theorem toNat_byte_sub (a b : Byte) : (a - b).toNat = (a.toNat + 256 - b.toNat) % 256 := by
  bv_omega

theorem toNat_byte_shiftRight_one (b : Byte) : (b >>> 1).toNat = b.toNat / 2 := by
  rw [BitVec.toNat_ushiftRight, Nat.shiftRight_eq_div_pow, pow_one]

theorem toNat_byte_shiftLeft_one (b : Byte) : (b <<< 1).toNat = b.toNat * 2 % 256 := by
  rw [BitVec.toNat_shiftLeft, Nat.shiftLeft_eq, pow_one]

theorem toNat_boolByte (c : Bool) : (boolByte c).toNat = c.toNat := by
  cases c <;> rfl

/-- Bit `k` of a byte as a flag. -/
theorem toNat_boolByte_getLsbD (b : Byte) (k : Nat) : (boolByte (b.getLsbD k)).toNat = b.toNat / 2 ^ k % 2 := by
  rw [toNat_boolByte, ← BitVec.testBit_toNat, Nat.toNat_testBit]

theorem toNat_carryFlag (a b : Byte) : (carryFlag a b).toNat = if 255 < a.toNat + b.toNat then 1 else 0 := by
  rw [carryFlag, toNat_boolByte, Bool.toNat, Bool.cond_decide]

theorem toNat_noBorrowFlag (a b : Byte) : (noBorrowFlag a b).toNat = if a.toNat < b.toNat then 0 else 1 := by
  rw [noBorrowFlag, toNat_boolByte, Bool.toNat, Bool.cond_decide]
  simp only [← Nat.not_lt, ite_not]

theorem toNat_shrFlag (b : Byte) : (shrFlag b).toNat = b.toNat % 2 := by
  rw [shrFlag, toNat_boolByte_getLsbD, pow_zero, Nat.div_one]

/-- A byte is below 256, so bit 7 is the quotient by 128. -/
theorem toNat_shlFlag (b : Byte) : (shlFlag b).toNat = b.toNat / 128 := by
  have hlt := b.isLt
  rw [shlFlag, toNat_boolByte_getLsbD]
  omega

/-! ## Instructions without a flag -/

/-- Settles O13: the result is the byte of the word. -/
theorem ldByteLoads : Obligations.LdByteLoads := by
  intro x nn s
  exact ⟨isWordOf_of_encode_eq_wordXNN rfl rfl (by decide) (by omega), exists_onlyResult_of_setReg rfl rfl⟩

/-- Settles O14: the sum of bytes wraps at 256. -/
theorem addByteWrapsWithoutCarry : Obligations.AddByteWrapsWithoutCarry := by
  intro x nn s
  exact ⟨isWordOf_of_encode_eq_wordXNN rfl rfl (by decide) (by omega),
    exists_onlyResult_of_setReg rfl (BitVec.toNat_add _ _)⟩

/-- Settles O15: the result is the byte read from VY. -/
theorem ldRegCopies : Obligations.LdRegCopies := by
  intro x y s
  exact ⟨isWordOf_of_encode_eq_wordXYN rfl rfl (by decide) (by bv_omega), exists_onlyResult_of_setReg rfl rfl⟩

/-- Settles O16: each operation on bytes is the one on their numbers. -/
theorem logicOpsAreBitwise : Obligations.LogicOpsAreBitwise := by
  intro x y s
  refine ⟨isWordOf_of_encode_eq_wordXYN rfl rfl (by decide) (by bv_omega),
    isWordOf_of_encode_eq_wordXYN rfl rfl (by decide) (by bv_omega),
    isWordOf_of_encode_eq_wordXYN rfl rfl (by decide) (by bv_omega), ?_, ?_, ?_⟩
  · exact exists_onlyResult_of_setReg rfl (BitVec.toNat_or _ _)
  · exact exists_onlyResult_of_setReg rfl (BitVec.toNat_and _ _)
  · exact exists_onlyResult_of_setReg rfl (BitVec.toNat_xor _ _)

/-- Settles O22: the mask is applied to the `rnd` that the state holds, whatever it is. -/
theorem rndByteMasksRnd : Obligations.RndByteMasksRnd := by
  intro x nn s
  exact ⟨isWordOf_of_encode_eq_wordXNN rfl rfl (by decide) (by omega),
    exists_onlyResult_of_setReg rfl (BitVec.toNat_and _ _)⟩

/-! ## Instructions with a flag -/

/-- Settles O17: the sum wraps at 256, and the carry is taken of the sum on naturals. -/
theorem addRegCarries : Obligations.AddRegCarries := by
  intro x y s
  exact ⟨isWordOf_of_encode_eq_wordXYN rfl rfl (by decide) (by bv_omega),
    exists_resultAndFlag_of_setRegFlag rfl (BitVec.toNat_add _ _) (toNat_carryFlag _ _)⟩

/-- Settles O18: VX is the minuend of the difference and of the borrow. -/
theorem subRegBorrows : Obligations.SubRegBorrows := by
  intro x y s
  exact ⟨isWordOf_of_encode_eq_wordXYN rfl rfl (by decide) (by bv_omega),
    exists_resultAndFlag_of_setRegFlag rfl (toNat_byte_sub _ _) (toNat_noBorrowFlag _ _)⟩

/-- Settles O19: a shift right by 1 halves VY, and the flag is the bit shifted out. -/
theorem shrRegShiftsVy : Obligations.ShrRegShiftsVy := by
  intro x y s
  exact ⟨isWordOf_of_encode_eq_wordXYN rfl rfl (by decide) (by bv_omega),
    exists_resultAndFlag_of_setRegFlag rfl (toNat_byte_shiftRight_one _) (toNat_shrFlag _)⟩

/-- Settles O20: VY is the minuend of the difference and of the borrow. -/
theorem subnRegBorrows : Obligations.SubnRegBorrows := by
  intro x y s
  exact ⟨isWordOf_of_encode_eq_wordXYN rfl rfl (by decide) (by bv_omega),
    exists_resultAndFlag_of_setRegFlag rfl (toNat_byte_sub _ _) (toNat_noBorrowFlag _ _)⟩

/-- Settles O21: a shift left by 1 doubles VY modulo 256, and the flag is the bit shifted out. -/
theorem shlRegShiftsVy : Obligations.ShlRegShiftsVy := by
  intro x y s
  exact ⟨isWordOf_of_encode_eq_wordXYN rfl rfl (by decide) (by bv_omega),
    exists_resultAndFlag_of_setRegFlag rfl (toNat_byte_shiftLeft_one _) (toNat_shlFlag _)⟩

end Sys2Proof.Machine

/-! Proofs of the statements about the index register and memory transfer (43_index_memory.md): I as a number, the fault of a checked access in the terms of the statements, the blocks that the transfers write and read, and the statements read off the handlers. -/

namespace Sys2Proof.Machine

/-! ## I as a number modulo 2^16 -/

theorem add_byteAddr_eq_ofNat (i : Addr) (b : Byte) :
    i + byteAddr b = BitVec.ofNat 16 ((i.toNat + b.toNat) % 0x10000) := by
  rw [byteAddr]
  bv_omega

theorem glyphAddr_eq_ofNat (b : Byte) : glyphAddr b = BitVec.ofNat 16 (5 * (b.toNat % 16)) := by
  rw [glyphAddr, hw_fontBase, Nat.zero_add]
  rfl

theorem blockEnd_eq_ofNat (i : Addr) (x : Reg) :
    blockEnd i x = BitVec.ofNat 16 ((i.toNat + x.val + 1) % 0x10000) := by
  rw [blockEnd, blockCount]
  bv_omega

/-! ## The two faults of a checked access (R52, R54, R55) -/

theorem accessTrap_eq_outOfBounds {addr : Addr} {n : Nat} (k : AccessKind) (h : Config.hw.memSize < addr.toNat + n) :
    accessTrap addr n k = some ⟨.memoryOutOfBounds, some ⟨addr, n, k⟩⟩ :=
  if_pos h

theorem accessTrap_eq_writeProtect {addr : Addr} {n : Nat} (hend : addr.toNat + n ≤ Config.hw.memSize)
    (hlow : addr.toNat < Config.hw.origin) :
    accessTrap addr n .write = some ⟨.writeProtect, some ⟨addr, n, .write⟩⟩ := by
  rw [accessTrap, if_neg (Nat.not_lt_of_le hend), if_pos ⟨rfl, hlow⟩]

section

variable {s : State} {x : Reg} {a : Addr} {t : Trap}

/-- An answer that is either a raised access fault or, when there is none, something else, is Halted on the fault there is. -/
theorem eq_haltedAt_of_trap {o : Host.Outcome State Fault Refusal} {trap : Option Trap} {noFault : Prop}
    (hcases : (∃ t, trap = some t ∧ o = .next (s.raise t)) ∨ noFault) (hnone : noFault → trap = none)
    (hpc : s.pc = a + 2) (ht : trap = some t) : o = .next (HaltedAt s a t.reason t.access) := by
  rcases hcases with ⟨t', ht', e⟩ | hno
  · cases ht'.symm.trans ht
    rw [e, raise_eq_haltedAt _ hpc]
  · cases (hnone hno).symm.trans ht

/-! ## The handlers, with a fault and without -/

theorem exec_ldB_trapped (hpc : s.pc = a + 2) (ht : accessTrap s.i 3 .write = some t) :
    exec (.ldB x) s = .next (HaltedAt s a t.reason t.access) :=
  eq_haltedAt_of_trap (execLdB_cases s x) (fun ⟨hend, hlow, _⟩ => accessTrap_eq_none.2 ⟨hend, fun _ => hlow⟩) hpc ht

theorem exec_storeRegs_trapped (hpc : s.pc = a + 2) (ht : accessTrap s.i (x.val + 1) .write = some t) :
    exec (.storeRegs x) s = .next (HaltedAt s a t.reason t.access) :=
  eq_haltedAt_of_trap (execStoreRegs_cases s x) (fun ⟨hend, hlow, _⟩ => accessTrap_eq_none.2 ⟨hend, fun _ => hlow⟩)
    hpc ht

theorem exec_loadRegs_trapped (hpc : s.pc = a + 2) (ht : accessTrap s.i (x.val + 1) .read = some t) :
    exec (.loadRegs x) s = .next (HaltedAt s a t.reason t.access) :=
  eq_haltedAt_of_trap (execLoadRegs_cases s x) (fun ⟨hend, _⟩ => accessTrap_eq_none.2 ⟨hend, nofun⟩) hpc ht

theorem exec_ldB_inside (hlow : Config.hw.origin ≤ s.i.toNat) (hend : s.i.toNat + 3 ≤ Config.hw.memSize) :
    exec (.ldB x) s = .next (s.setMem (s.mem.writeBytes s.i.toNat (bcdBytes (s.reg x)))) := by
  rcases execLdB_cases s x with ⟨t, ht, -⟩ | ⟨-, -, e⟩
  · cases (accessTrap_eq_none.2 ⟨hend, fun _ => hlow⟩).symm.trans ht
  · exact e

theorem exec_loadRegs_inside (hend : s.i.toNat + (x.val + 1) ≤ Config.hw.memSize) :
    exec (.loadRegs x) s =
      .next ((s.setV (loadBlock s.v (s.mem.readBytes s.i.toNat (x.val + 1)))).setI (blockEnd s.i x)) := by
  have hnone : accessTrap s.i (x.val + 1) .read = none := accessTrap_eq_none.2 ⟨hend, nofun⟩
  rcases execLoadRegs_cases s x with ⟨t, ht, -⟩ | ⟨-, e⟩
  · cases hnone.symm.trans ht
  · exact e

end

/-! ## The bytes written and the registers loaded -/

/-- The digits of a byte are below 256, so each fits its byte. -/
theorem toNat_read_writeBytes_bcdBytes (m : Memory) (a : Nat) (b : Byte) :
    ((m.writeBytes a (bcdBytes b)).read a).toNat = b.toNat / 100 ∧
    ((m.writeBytes a (bcdBytes b)).read (a + 1)).toNat = b.toNat / 10 % 10 ∧
    ((m.writeBytes a (bcdBytes b)).read (a + 2)).toNat = b.toNat % 10 := by
  have hdigit : ∀ {n : Nat}, n ≤ b.toNat → (BitVec.ofNat 8 n).toNat = n := fun h =>
    Nat.mod_eq_of_lt (h.trans_lt b.isLt)
  have hread : ∀ k (h : k < 3), ((m.writeBytes a (bcdBytes b)).read (a + k)).toNat = ((bcdBytes b)[k]'h).toNat :=
    fun _ h => congrArg _ (m.read_writeBytes_inside a (bcdBytes b) h)
  refine ⟨?_, ?_, ?_⟩
  · exact (hread 0 (by decide)).trans (hdigit (by omega))
  · exact (hread 1 (by decide)).trans (hdigit (by omega))
  · exact (hread 2 (by decide)).trans (hdigit (by omega))

theorem read_writeBytes_blockBytes (m : Memory) (a : Nat) (v : Vector Byte 16) {x k : Reg} (h : k ≤ x) :
    (m.writeBytes a (blockBytes v x)).read (a + k.val) = v[k] := by
  have hlen : k.val < (blockBytes v x).length := by
    rw [length_blockBytes]
    exact Nat.lt_succ_of_le h
  rw [Memory.read_writeBytes_inside _ _ _ hlen, getElem_blockBytes]
  rfl

theorem loadBlock_readBytes_of_le (v : Vector Byte 16) (m : Memory) (a : Nat) {x k : Reg} (h : k ≤ x) :
    (loadBlock v (m.readBytes a (x.val + 1)))[k] = m.read (a + k.val) := by
  have hlen : k.val < (m.readBytes a (x.val + 1)).length := by
    rw [Memory.length_readBytes]
    exact Nat.lt_succ_of_le h
  rw [getElem_loadBlock, List.getD_eq_getElem _ _ hlen, Memory.getElem_readBytes]

theorem loadBlock_readBytes_of_lt (v : Vector Byte 16) (m : Memory) (a : Nat) {x k : Reg} (h : x < k) :
    (loadBlock v (m.readBytes a (x.val + 1)))[k] = v[k] := by
  have hlen : (m.readBytes a (x.val + 1)).length ≤ k.val := by
    rw [Memory.length_readBytes]
    exact h
  rw [getElem_loadBlock, List.getD_eq_default _ _ hlen]

/-! ## Setting I -/

/-- Settles O23: NNN as an address. -/
theorem ldISetsI : Obligations.LdISetsI := by
  intro nnn s
  refine ⟨isWordOf_of_encode_eq_wordNNN rfl rfl (by decide) rfl, ?_⟩
  rw [← nnnAddr_eq_ofNat]
  rfl

/-- Settles O24: the sum of addresses wraps at 2^16. -/
theorem addIWraps : Obligations.AddIWraps := by
  intro x s
  refine ⟨isWordOf_of_encode_eq_wordXNN rfl rfl (by decide) (by bv_omega), ?_⟩
  rw [← add_byteAddr_eq_ofNat]
  rfl

/-- Settles O25: the font starts at address 0, with 5 bytes to a glyph. -/
theorem ldFPointsAtGlyph : Obligations.LdFPointsAtGlyph := by
  intro x s
  refine ⟨isWordOf_of_encode_eq_wordXNN rfl rfl (by decide) (by bv_omega), ?_⟩
  rw [← glyphAddr_eq_ofNat]
  rfl

/-! ## Memory transfer -/

/-- Settles O26: the three digits are a run of writes at I, checked as one access. -/
theorem ldBStoresDigits : Obligations.LdBStoresDigits := by
  intro x s
  refine ⟨isWordOf_of_encode_eq_wordXNN rfl rfl (by decide) (by bv_omega), fun hlow hend => ?_,
    fun a hpc hpast => ?_, fun a hpc hlow => ?_⟩
  · obtain ⟨hhundreds, htens, hunits⟩ := toNat_read_writeBytes_bcdBytes s.mem s.i.toNat (s.reg x)
    exact ⟨_, exec_ldB_inside hlow hend, hhundreds, htens, hunits,
      fun b hb => Memory.read_writeBytes_outside _ _ hb, rfl⟩
  · exact exec_ldB_trapped hpc (accessTrap_eq_outOfBounds _ hpast)
  · exact exec_ldB_trapped hpc (accessTrap_eq_writeProtect (by rw [hw_memSize]; omega) hlow)

/-- Settles O27: the block is a run of writes at I, checked as one access. -/
theorem storeRegsStoresBlock : Obligations.StoreRegsStoresBlock := by
  intro x s
  refine ⟨isWordOf_of_encode_eq_wordXNN rfl rfl (by decide) (by bv_omega), fun hlow hend => ?_,
    fun a hpc hpast => ?_, fun a hpc hlow => ?_⟩
  · refine ⟨_, exec_storeRegs_inside hlow hend, fun k hk => read_writeBytes_blockBytes _ _ _ hk, fun b hb => ?_, ?_⟩
    · exact Memory.read_writeBytes_outside _ _ (by rw [length_blockBytes]; exact hb)
    · rw [← blockEnd_eq_ofNat]
      rfl
  · exact exec_storeRegs_trapped hpc (accessTrap_eq_outOfBounds _ hpast)
  · exact exec_storeRegs_trapped hpc (accessTrap_eq_writeProtect (by rw [hw_memSize]; omega) hlow)

/-- Settles O28: the block is read in one access, and a register past it keeps its value. -/
theorem loadRegsLoadsBlock : Obligations.LoadRegsLoadsBlock := by
  intro x s
  refine ⟨isWordOf_of_encode_eq_wordXNN rfl rfl (by decide) (by bv_omega), fun hend => ?_, fun a hpc hpast => ?_⟩
  · refine ⟨_, exec_loadRegs_inside hend, fun k hk => loadBlock_readBytes_of_le _ _ _ hk,
      fun k hk => loadBlock_readBytes_of_lt _ _ _ hk, ?_⟩
    rw [← blockEnd_eq_ofNat]
    rfl
  · exact exec_loadRegs_trapped hpc (accessTrap_eq_outOfBounds _ hpast)

/-- Settles O29: the load reads the bytes that the store wrote, and the store wrote the registers. -/
theorem storeThenLoadGivesRegistersBack : Obligations.StoreThenLoadGivesRegistersBack := by
  intro x s hlow hend
  obtain ⟨-, hstore, -⟩ := storeRegsStoresBlock x s
  obtain ⟨t, ht, hstored, -⟩ := hstore hlow hend
  refine ⟨t, ht, fun u hmem hi => ?_⟩
  obtain ⟨-, hload, -⟩ := loadRegsLoadsBlock x u
  obtain ⟨w, hw, hloaded, -⟩ := hload (hi ▸ hend)
  exact ⟨w, hw, fun k hk => by rw [hloaded k hk, hmem, hi, hstored k hk]⟩

end Sys2Proof.Machine

/-! Proofs of the statements about the framebuffer (44_display.md): the pixels of a sprite in the terms of the statements, a draw with a fault and without, and the statements read off the draw. -/

namespace Sys2Proof.Machine

/-! ## Where a sprite's pixels are placed (R126, R128, R129) -/

section

variable {a b : Nat} {p : Pixel}

theorem place_wrap_eq_some_iff : place .wrap a b = some p ↔ p.1.val = a % 64 ∧ p.2.val = b % 32 := by
  rw [place, Option.some_inj, Prod.ext_iff, Fin.ext_iff, Fin.ext_iff]
  exact and_congr eq_comm eq_comm

theorem place_clip_eq_some_iff : place .clip a b = some p ↔ p.1.val = a ∧ p.2.val = b := by
  by_cases h : a < 64 ∧ b < 32
  · rw [place, dif_pos h, Option.some_inj, Prod.ext_iff, Fin.ext_iff, Fin.ext_iff]
    exact and_congr eq_comm eq_comm
  · rw [place, dif_neg h]
    refine iff_of_false nofun ?_
    rintro ⟨rfl, rfl⟩
    exact h ⟨p.1.isLt, p.2.isLt⟩

theorem place_clip_eq_place_wrap (ha : a < 64) (hb : b < 32) : place .clip a b = place .wrap a b := by
  have hclip : place .clip a b = some (⟨a, ha⟩, ⟨b, hb⟩) := place_clip_eq_some_iff.2 ⟨rfl, rfl⟩
  rw [hclip]
  exact (place_wrap_eq_some_iff.2 ⟨(Nat.mod_eq_of_lt ha).symm, (Nat.mod_eq_of_lt hb).symm⟩).symm

end

/-- A sprite whose set bits all lie on the screen has the same pixels under both policies. -/
theorem spritePixels_clip_eq_wrap {x0 y : Nat} {rows : List Byte}
    (h : ∀ r c, ∀ hr : r < rows.length, c < 8 → rows[r].getLsbD (7 - c) = true → x0 + c < 64 ∧ y + r < 32) :
    spritePixels .clip x0 y rows = spritePixels .wrap x0 y rows := by
  induction rows generalizing y with
  | nil => rfl
  | cons b rows ih =>
    have hrow : rowPixels .clip x0 y b = rowPixels .wrap x0 y b := by
      refine List.filterMap_congr fun c hc => ?_
      obtain ⟨hc8, hbit⟩ := mem_rowColumns.1 hc
      obtain ⟨hx, hy⟩ := h 0 c (Nat.zero_lt_succ _) hc8 hbit
      exact place_clip_eq_place_wrap hx hy
    have hrest : spritePixels .clip x0 (y + 1) rows = spritePixels .wrap x0 (y + 1) rows := by
      refine ih fun r c hr hc8 hbit => ?_
      obtain ⟨hx, hy⟩ := h (r + 1) c (Nat.succ_lt_succ hr) hc8 hbit
      exact ⟨hx, by omega⟩
    rw [spritePixels, spritePixels, hrow, hrest]

section

variable {s : State} {n : BitVec 4} {x y : Reg} {p : Pixel}

/-- The sprite's bits are those of the `n` bytes read at I. -/
theorem spriteBit_iff_readBytes {r c : Nat} :
    SpriteBit s n r c ↔ ∃ h : r < (s.mem.readBytes s.i.toNat n.toNat).length,
      c < 8 ∧ (s.mem.readBytes s.i.toNat n.toNat)[r].getLsbD (7 - c) = true := by
  simp only [SpriteBit, Memory.getElem_readBytes, Memory.length_readBytes, exists_prop]

theorem mem_spritePixels_readBytes {e : DrawEdge} {x0 y0 : Nat} :
    p ∈ spritePixels e x0 y0 (s.mem.readBytes s.i.toNat n.toNat) ↔
      ∃ r c, SpriteBit s n r c ∧ place e (x0 + c) (y0 + r) = some p := by
  rw [mem_spritePixels]
  refine exists_congr fun r => exists_congr fun c => ?_
  rw [spriteBit_iff_readBytes]
  exact ⟨fun ⟨hr, hc, hbit, hp⟩ => ⟨⟨hr, hc, hbit⟩, hp⟩, fun ⟨⟨hr, hc, hbit⟩, hp⟩ => ⟨hr, hc, hbit, hp⟩⟩

theorem mem_spritePixels_wrap_iff_coversWrapped :
    p ∈ spritePixels .wrap (s.reg x).toNat (s.reg y).toNat (s.mem.readBytes s.i.toNat n.toNat) ↔
      CoversWrapped s x y n p := by
  simp only [mem_spritePixels_readBytes, place_wrap_eq_some_iff, CoversWrapped]

theorem mem_spritePixels_clip_iff_coversClipped :
    p ∈ spritePixels .clip (s.reg x).toNat (s.reg y).toNat (s.mem.readBytes s.i.toNat n.toNat) ↔
      CoversClipped s x y n p := by
  simp only [mem_spritePixels_readBytes, place_clip_eq_some_iff, CoversClipped]

end

/-! ## A draw, with a fault and without (R127) -/

section

variable {s : State} {e : DrawEdge} {x y : Reg} {n : BitVec 4}

/-- Drawing at most 15 rows toggles each pixel of the sprite once, and only these collide. -/
theorem drawn_drawRows {cover : Pixel → Prop} {rows : List Byte} (hlen : rows.length ≤ 15)
    (hcover : ∀ p, p ∈ spritePixels e (s.reg x).toNat (s.reg y).toNat rows ↔ cover p) :
    Drawn cover s (drawRows e x y rows s) := by
  obtain ⟨hpixel, hhit⟩ := blit_spec _ (nodup_spritePixels e (s.reg x).toNat (s.reg y).toNat rows hlen) s.fb
  simp only [hcover] at hhit
  have hflag : (drawRows e x y rows s).reg flagReg =
      collisionFlag (blit (spritePixels e (s.reg x).toNat (s.reg y).toNat rows) s.fb).2 := by
    rw [drawRows, State.reg_setFlag, if_pos rfl]
  refine ⟨fun p => ⟨fun hp => ?_, fun hp => ?_⟩, fun hon => ?_, fun hoff => ?_, fun r hr => ?_, rfl⟩
  · exact (hpixel p).trans (by rw [decide_eq_true ((hcover p).2 hp), Bool.xor_true])
  · exact (hpixel p).trans (by rw [decide_eq_false fun h => hp ((hcover p).1 h), Bool.xor_false])
  · rw [hflag, hhit.2 hon]
    rfl
  · rw [hflag, Bool.eq_false_iff.2 fun h => hoff (hhit.1 h)]
    rfl
  · rw [drawRows, State.reg_setFlag, if_neg hr, State.reg_setFb]

theorem accessTrap_read_eq_none {addr : Addr} {k : Nat} (h : addr.toNat + k ≤ Config.hw.memSize) :
    accessTrap addr k .read = none :=
  accessTrap_eq_none.2 ⟨h, nofun⟩

theorem drawSprite_inside (h : n = 0 ∨ s.i.toNat + n.toNat ≤ Config.hw.memSize) :
    drawSprite e x y n s = drawRows e x y (s.mem.readBytes s.i.toNat n.toNat) s := by
  rcases drawSprite_cases s e x y n with ⟨t, hn, ht, -⟩ | ⟨-, heq⟩
  · cases (accessTrap_read_eq_none (h.resolve_left hn)).symm.trans ht
  · exact heq

theorem drawn_drawSprite {cover : Pixel → Prop} (h : n = 0 ∨ s.i.toNat + n.toNat ≤ Config.hw.memSize)
    (hcover : ∀ p, p ∈ spritePixels e (s.reg x).toNat (s.reg y).toNat (s.mem.readBytes s.i.toNat n.toNat) ↔ cover p) :
    Drawn cover s (drawSprite e x y n s) := by
  have hlen : (s.mem.readBytes s.i.toNat n.toNat).length ≤ 15 := by
    rw [Memory.length_readBytes]
    exact Nat.le_of_lt_succ n.isLt
  rw [drawSprite_inside h]
  exact drawn_drawRows hlen hcover

theorem exec_drw_trapped {a : Addr} {t : Trap} (hpc : s.pc = a + 2) (hn : n ≠ 0)
    (ht : accessTrap s.i n.toNat .read = some t) : exec (.drw x y n) s = .next (HaltedAt s a t.reason t.access) := by
  refine eq_haltedAt_of_trap ?_ accessTrap_read_eq_none hpc ht
  rcases drawSprite_cases s .wrap x y n with ⟨t', -, ht', heq⟩ | ⟨hend, -⟩
  · exact .inl ⟨t', ht', congrArg _ heq⟩
  · exact .inr (hend.resolve_left hn)

/-- The two policies read the same rows, so they differ only where they place pixels. -/
theorem drawSprite_clip_eq_wrap
    (h : ∀ r c, SpriteBit s n r c → (s.reg x).toNat + c < 64 ∧ (s.reg y).toNat + r < 32) :
    drawSprite .clip x y n s = drawSprite .wrap x y n s := by
  rcases spriteRows_cases s.mem s.i n with ⟨t, -, -, hrows⟩ | ⟨hin, -⟩
  · rw [drawSprite, drawSprite, hrows]
  · rw [drawSprite_inside hin, drawSprite_inside hin, drawRows, drawRows,
      spritePixels_clip_eq_wrap fun r c hr hc hbit => h r c (spriteBit_iff_readBytes.2 ⟨hr, hc, hbit⟩)]

end

/-! ## Two draws at the same place -/

section

variable {cover : Pixel → Prop} {s t u : State}

theorem Drawn.mem_eq (h : Drawn cover s t) : t.mem = s.mem := by
  obtain ⟨-, -, -, -, hframe⟩ := h
  rw [hframe]

theorem Drawn.i_eq (h : Drawn cover s t) : t.i = s.i := by
  obtain ⟨-, -, -, -, hframe⟩ := h
  rw [hframe]

theorem Drawn.reg_eq {r : Reg} (h : Drawn cover s t) (hr : r ≠ flagReg) : t.reg r = s.reg r := by
  obtain ⟨-, -, -, hreg, -⟩ := h
  exact hreg r hr

theorem Drawn.getPixel_twice (hst : Drawn cover s t) (htu : Drawn cover t u) (p : Pixel) :
    getPixel u.fb p = getPixel s.fb p := by
  obtain ⟨hfirst, -⟩ := hst
  obtain ⟨hsecond, -⟩ := htu
  by_cases hp : cover p
  · rw [(hsecond p).1 hp, (hfirst p).1 hp, Bool.not_not]
  · rw [(hsecond p).2 hp, (hfirst p).2 hp]

/-- On a clear screen the first draw meets no pixel, and the second meets those the first turned on. -/
theorem Drawn.flags_of_clear (hst : Drawn cover s t) (htu : Drawn cover t u)
    (hclear : ∀ p, getPixel s.fb p = false) (hcover : ∃ p, cover p) : t.reg flagReg = 0 ∧ u.reg flagReg = 1 := by
  obtain ⟨hfirst, -, hmiss, -⟩ := hst
  obtain ⟨-, hhit, -⟩ := htu
  obtain ⟨p, hp⟩ := hcover
  have hon : getPixel t.fb p = true := by rw [(hfirst p).1 hp, hclear p, Bool.not_false]
  refine ⟨hmiss ?_, hhit ⟨p, hp, hon⟩⟩
  rintro ⟨q, -, hq⟩
  exact Bool.false_ne_true ((hclear q).symm.trans hq)

/-- A draw changes none of what the place and the bits of a sprite depend on, unless a coordinate is VF. -/
theorem Drawn.coversWrapped_eq {x y : Reg} (h : Drawn cover s t) (hx : x ≠ flagReg) (hy : y ≠ flagReg)
    (n : BitVec 4) : CoversWrapped t x y n = CoversWrapped s x y n := by
  funext p
  simp only [CoversWrapped, SpriteBit, h.mem_eq, h.i_eq, h.reg_eq hx, h.reg_eq hy]

theorem exists_coversWrapped {n : BitVec 4} (x y : Reg) (h : ∃ r c, SpriteBit s n r c) :
    ∃ p, CoversWrapped s x y n p := by
  obtain ⟨r, c, hbit⟩ := h
  exact ⟨(Fin.ofNat 64 ((s.reg x).toNat + c), Fin.ofNat 32 ((s.reg y).toNat + r)), r, c, hbit, rfl, rfl⟩

end

/-! ## CLS and DRW -/

/-- Settles O31: every pixel of the clear screen is off. -/
theorem clsClearsScreen : Obligations.ClsClearsScreen :=
  ⟨isWordOf_toNat_encode (i := .cls) rfl, fun _ => ⟨_, rfl, getPixel_clearScreen, rfl⟩⟩

/-- Settles O32: the hardware's draw is the draw under `wrap`. -/
theorem drwTogglesWrappedSprite : Obligations.DrwTogglesWrappedSprite := by
  intro x y n s
  refine ⟨isWordOf_of_encode_eq_wordXYN rfl rfl (by decide) (by omega), fun hin => ?_, fun a hpc hn hpast => ?_⟩
  · exact ⟨_, rfl, drawn_drawSprite hin fun _ => mem_spritePixels_wrap_iff_coversWrapped⟩
  · exact exec_drw_trapped hpc hn (accessTrap_eq_outOfBounds _ hpast)

/-- Settles O33: the draw under `clip`, and the two policies on a sprite inside the screen. -/
theorem clippedDrawTogglesVisibleSprite : Obligations.ClippedDrawTogglesVisibleSprite := by
  intro x y n s
  exact ⟨fun hin => drawn_drawSprite hin fun _ => mem_spritePixels_clip_iff_coversClipped, drawSprite_clip_eq_wrap⟩

/-- Settles O34: the second draw toggles the pixels that the first one did. -/
theorem drawTwiceRestoresScreen : Obligations.DrawTwiceRestoresScreen := by
  intro x y n s hx hy hin
  obtain ⟨-, hdraw, -⟩ := drwTogglesWrappedSprite x y n s
  obtain ⟨t, ht, hst⟩ := hdraw hin
  obtain ⟨-, hredraw, -⟩ := drwTogglesWrappedSprite x y n t
  obtain ⟨u, hu, htu⟩ := hredraw (by rwa [hst.i_eq])
  rw [hst.coversWrapped_eq hx hy] at htu
  exact ⟨t, u, ht, hu, hst.getPixel_twice htu, fun hclear hbit =>
    hst.flags_of_clear htu hclear (exists_coversWrapped x y hbit)⟩

end Sys2Proof.Machine

/-! Proofs of the statements about the timer transfers and the start of the key wait (45_timers_input.md): the whole running cycle of an instruction whose handler leaves the core running, and the statements read off them. -/

namespace Sys2Proof.Machine

section

variable {s t : State} {ticks : Nat} {rnd : Byte} {i : Instr}

/-- A running cycle whose handler leaves the core running ends with KeysPrev and the ticks (R81, R88). -/
theorem cycle_of_exec_running (hr : s.run = .running) (hpc : s.pc.toNat + 2 ≤ Config.hw.memSize)
    (hd : decode (wordAtPc s) = .ok i) (ht : exec i (s.enter rnd) = .next t) (htr : t.run = .running) :
    cycle ticks rnd s = .next (Finished t ticks []) := by
  have hf : ¬∃ f, t.run = .halted f := by simp [htr]
  rw [cycle_running ticks rnd hr, runningCycle_of_decode_ok hpc hd, executeCycle_next ht,
    afterExecute_of_not_halted hf, finishCycle_eq_finished]

end

/-- Settles O35: the cycle's ticks come after the handler, which reads DT, or writes a timer, as it stands before them. -/
theorem timerTransfers : Obligations.TimerTransfers := by
  intro x s
  refine ⟨isWordOf_of_encode_eq_wordXNN rfl rfl (by decide) (by bv_omega),
    isWordOf_of_encode_eq_wordXNN rfl rfl (by decide) (by bv_omega),
    isWordOf_of_encode_eq_wordXNN rfl rfl (by decide) (by bv_omega),
    exists_onlyResult_of_setReg rfl rfl, rfl, rfl, bne_iff_ne,
    fun ticks rnd hr hpc => ⟨fun hd => ?_, fun hd => ?_, fun hd => ?_⟩⟩
  · have hexec : exec (.ldVxDt x) (s.enter rnd) = .next ((s.enter rnd).setReg x s.dt) := rfl
    exact ⟨_, cycle_of_exec_running hr hpc hd hexec hr, by simp, toNat_dt_finished _ ticks []⟩
  · have hexec : exec (.ldDtVx x) (s.enter rnd) = .next ((s.enter rnd).setDt (s.reg x)) := rfl
    exact ⟨_, cycle_of_exec_running hr hpc hd hexec hr, toNat_dt_finished _ ticks []⟩
  · have hexec : exec (.ldStVx x) (s.enter rnd) = .next ((s.enter rnd).setSt (s.reg x)) := rfl
    exact ⟨_, cycle_of_exec_running hr hpc hd hexec hr, toNat_st_finished _ ticks []⟩

/-- Settles O36: the handler writes the run state and nothing else. -/
theorem ldVxKStartsWait : Obligations.LdVxKStartsWait := by
  intro x s
  exact ⟨isWordOf_of_encode_eq_wordXNN rfl rfl (by decide) (by bv_omega), rfl⟩

end Sys2Proof.Machine

/-! Proof of the statement on which instructions can raise a fatal error (60_exceptions.md): a halt comes only from the raising effect, which `exec_effect` grants to the six named instructions. -/

namespace Sys2Proof.Machine

/-- An instruction that takes a state that is not halted to a halted one is one of the six that can raise (R138). -/
theorem ExecEffect.mayRaise_of_run_halted {s t : State} {i : Instr} {f : FaultRecord} (he : ExecEffect s i t)
    (hs : ¬∃ g, s.run = .halted g) (hf : t.run = .halted f) : MayRaise i := by
  cases he with
  | raised _ _ hi _ => exact hi
  | ldVxK => cases hf
  | _ => exact absurd ⟨f, hf⟩ hs

/-- Settles O51: of the listed effects only `raised` halts, and only the six instructions have it. -/
theorem onlySixInstructionsRaiseFaults : Obligations.OnlySixInstructionsRaiseFaults :=
  fun _ _ _ _ hs hexec hf => (effect_of_exec hexec).mayRaise_of_run_halted hs hf

end Sys2Proof.Machine

/-! Proof of the statement about Load (70_reset_and_hazards.md): what Load answers when the bytes fit and when they do not, and the run state after it. -/

namespace Sys2Proof.Machine

/-- Load of more bytes than the store holds from ORIGIN on gives a reply and nothing else (R156). -/
theorem loadProgram_of_too_large {bytes : List Byte} (s : State)
    (h : Config.hw.memSize - Config.hw.origin < bytes.length) :
    loadProgram bytes s = s.setReply .loadTooLarge :=
  if_pos h

/-- Load of bytes that fit writes them from ORIGIN on and sets PC, the run state and the reply (R155). -/
theorem loadProgram_of_fits {bytes : List Byte} (s : State)
    (h : bytes.length ≤ Config.hw.memSize - Config.hw.origin) :
    loadProgram bytes s =
      { s with
        mem := s.mem.writeBytes Config.hw.origin bytes
        pc := BitVec.ofNat 16 Config.hw.origin
        run := runAfterLoad s.run
        reply := .loadOk } :=
  if_neg (Nat.not_lt.2 h)

theorem runAfterLoad_of_halted {r : Run} (h : ∃ f, r = .halted f) : runAfterLoad r = r := by
  obtain ⟨f, rfl⟩ := h
  rfl

theorem runAfterLoad_of_not_halted {r : Run} (h : ¬∃ f, r = .halted f) : runAfterLoad r = .running := by
  cases r with
  | halted f => exact absurd ⟨f, rfl⟩ h
  | unloaded | running | awaitKey => rfl

/-- Settles O47: a Load that fits is one run of bytes written at ORIGIN, so what each address reads is inside or outside that run. -/
theorem loadCopiesOrRefuses : Obligations.LoadCopiesOrRefuses := by
  intro s bytes rest hhost
  have hstep : step s = .next (loadProgram bytes (s.setHost rest)) := step_of_host hhost
  refine ⟨fun hlarge => ?_, fun hfits => ?_⟩
  · rw [hstep, loadProgram_of_too_large _ hlarge]
    rfl
  · rw [loadProgram_of_fits _ hfits] at hstep
    exact ⟨_, hstep, fun k hk => Memory.read_writeBytes_inside _ _ _ hk,
      fun a ha => Memory.read_writeBytes_outside _ _ ha, runAfterLoad_of_halted, runAfterLoad_of_not_halted, rfl⟩

end Sys2Proof.Machine

/-! Proof of the statement about the stored forms (10_state.md 7, 9): what a canonical list holds is fixed by what it reads as, and a list in strictly rising order is fixed by what it holds. -/

namespace Sys2Proof.Machine

/-- Lists that rise strictly by a numeric key are equal when they have the same members. -/
theorem eq_of_mem_iff_of_key_rising {α : Type} (key : α → Nat) {l l' : List α}
    (h : l.Pairwise fun a b => key a < key b) (h' : l'.Pairwise fun a b => key a < key b)
    (hmem : ∀ a, a ∈ l ↔ a ∈ l') : l = l' :=
  have : Std.Antisymm fun a b => key a < key b := ⟨fun _ _ hab hba => absurd hba (Nat.lt_asymm hab)⟩
  have : Std.Irrefl fun a b => key a < key b := ⟨fun _ => Nat.lt_irrefl _⟩
  List.Pairwise.eq_of_mem_iff h h' hmem

/-- A listed cell of a rising memory is what its address reads as: no earlier cell has that address. -/
theorem Memory.read_of_mem {m : Memory} {c : Host.Cell} (h : m.Pairwise fun c d => c.1 < d.1) (hc : c ∈ m) :
    m.read c.1 = c.2 := by
  induction m with
  | nil => cases hc
  | cons d m ih =>
    obtain ⟨hd, hm⟩ := List.pairwise_cons.1 h
    rw [Memory.read]
    rcases List.mem_cons.1 hc with rfl | hc
    · exact if_pos rfl
    · rw [if_neg (Nat.ne_of_lt (hd c hc)), ih hm hc]

/-- An address that reads otherwise than after Reset is listed, with the byte it reads as. -/
theorem Memory.mem_of_read_ne_resetByte {m : Memory} {a : Nat} (h : m.read a ≠ resetByte a) : (a, m.read a) ∈ m := by
  induction m with
  | nil => exact absurd rfl h
  | cons d m ih =>
    rw [Memory.read] at h ⊢
    split at h
    · next hd => rw [if_pos hd, ← hd]; exact List.mem_cons_self
    · next hd => rw [if_neg hd]; exact List.mem_cons_of_mem d (ih h)

/-- A canonical memory lists exactly the bytes that differ from what Reset leaves. -/
theorem Memory.mem_iff_read_of_wf {m : Memory} (h : m.wf) (c : Host.Cell) :
    c ∈ m ↔ m.read c.1 = c.2 ∧ m.read c.1 ≠ resetByte c.1 := by
  constructor
  · intro hc
    have hread := Memory.read_of_mem h.1 hc
    exact ⟨hread, hread ▸ (h.2 c hc).2⟩
  · rintro ⟨hread, hne⟩
    have hlisted := Memory.mem_of_read_ne_resetByte hne
    rwa [hread] at hlisted

/-- A canonical memory is determined by what it reads as. -/
theorem Memory.eq_of_read_eq {m m' : Memory} (h : m.wf) (h' : m'.wf) (hread : ∀ a, m.read a = m'.read a) : m = m' :=
  eq_of_mem_iff_of_key_rising Prod.fst h.1 h'.1 fun c => by
    rw [Memory.mem_iff_read_of_wf h, Memory.mem_iff_read_of_wf h', hread]

/-- A canonical framebuffer is determined by its pixels. -/
theorem Framebuffer.eq_of_getPixel_eq {g g' : Framebuffer} (h : Framebuffer.wf g) (h' : Framebuffer.wf g')
    (hpix : ∀ p, getPixel g p = getPixel g' p) : g = g' :=
  eq_of_mem_iff_of_key_rising pixelIndex h h' fun p => by
    rw [← getPixel_iff, ← getPixel_iff, hpix]

/-- Settles O60: a memory's cells, and a framebuffer's pixels, are fixed by the reads, and their order by the canonical form. -/
theorem canonicalFormsAreUnique : Obligations.CanonicalFormsAreUnique :=
  ⟨fun _ _ h h' hread => Memory.eq_of_read_eq h h' hread,
    fun _ _ h h' hpix => Framebuffer.eq_of_getPixel_eq h h' hpix⟩

end Sys2Proof.Machine
